-- ==== Sys2Proof/Word.lean ====
section
/-! DEFINITION. The plain data the spec speaks of: bytes, line levels, the two bus states. -/

namespace Sys2Proof

/-- One byte of the image or of the EEPROM (R63). -/
abbrev Byte := BitVec 8

/-- A line level or a one-bit flag: `true` is 1, high (R38). -/
abbrev Level := Bool

/-- BUSSEL, "an explicit enum" (R26, R206). -/
inductive BusSel where
  | onboard
  | external
deriving DecidableEq, Repr, Inhabited

/-- The encoding of BUSSEL: 0 = ONBOARD, 1 = EXTERNAL (R26). -/
def BusSel.code : BusSel → BitVec 1
  | .onboard => 0
  | .external => 1

/-- The state TOGGLE_BUS goes to (R205). -/
def BusSel.other : BusSel → BusSel
  | .onboard => .external
  | .external => .onboard

end Sys2Proof
end

