-- ==== Sys2Proof/Config.lean ====
section
/-! DEFINITION. The implementation parameters of R9, and the free values: the environment's answers and what the
spec leaves open. -/

namespace Sys2Proof

/-- The parameters of R9: constants of the process (R295). `probeDelay` is read by no rule (R183). BUS_PINS is given
by its two values. -/
structure Params where
  notifyIter : Nat
  wdtNotifyPeriod : Nat
  hdrTimeout : Nat
  dataTimeout : Nat
  tmoPerEdge : Bool
  eePage : Nat
  eeCap : Nat
  probeDelay : Nat
  busPinsOnboard : BitVec 2
  busPinsExternal : BitVec 2
deriving DecidableEq, Repr, Inhabited

/-- BUS_PINS, the configuration function of R9. -/
def Params.busPins (p : Params) : BusSel → BitVec 2
  | .onboard => p.busPinsOnboard
  | .external => p.busPinsExternal

/-- The constraints R9 puts on the parameters: each of these is at least 1. -/
def Params.wf (p : Params) : Bool :=
  decide (1 ≤ p.notifyIter) && decide (1 ≤ p.wdtNotifyPeriod) && decide (1 ≤ p.hdrTimeout) &&
    decide (1 ≤ p.dataTimeout) && decide (1 ≤ p.eePage) && decide (1 ≤ p.eeCap)

/-- The same parameters with each constrained one raised to at least 1. -/
def Params.atLeastOne (p : Params) : Params :=
  { p with
    notifyIter := max 1 p.notifyIter
    wdtNotifyPeriod := max 1 p.wdtNotifyPeriod
    hdrTimeout := max 1 p.hdrTimeout
    dataTimeout := max 1 p.dataTimeout
    eePage := max 1 p.eePage
    eeCap := max 1 p.eeCap }

/-- The host's parameters, DR giving none of them: the two accepted file sizes (N14), whether the end-of-file record's
checksum is verified (N16), whether records after it are still applied (N30; if not, they are not looked at). -/
structure Machine.HexParams where
  sizeCrlf : Nat
  sizeLf : Nat
  checkEofSum : Bool
  applyAfterEof : Bool
deriving DecidableEq, Repr, Inhabited

/-- DESIGN CHOICE (log entry 1), safe: the process's parameters, of which nothing is known. -/
opaque Config.rawParams : Params

/-- The parameters of the machine after reset: unknown, but for R9's constraints. -/
def Config.params : Params := Config.rawParams.atLeastOne

/-- Free value (log entry 2), safe: the `k`-th level the DSP puts on CLK, "under no law" (R12). -/
opaque Config.freeClk : Nat → Level

/-- Free value (log entry 3), safe: the `k`-th answer of EEDEV to a probe (R76). -/
opaque Config.freeProbe : Nat → Bool

/-- Free value (log entry 4), safe: which bits of the `i`-th byte of the `k`-th page read come back wrong (R76). -/
opaque Config.freeReadError : Nat → Nat → Byte

/-- DESIGN CHOICE (log entry 19), safe: the host's parameters, of which nothing is known. -/
opaque Config.hexParams : Machine.HexParams

/-- Free value (log entry 19), safe: what the staging buffer of the `load`-th load holds at an address before any record
is placed there. DR gives no initial content (N15, U15): it may be another one in each load. -/
opaque Config.freeStaging (load a : Nat) : Byte

/-- Free value (log entry 19), safe: what the `k`-th payload byte placed by the `load`-th load does to the byte of the
staging buffer at `a` when its own address lies outside the buffer; `none` leaves that byte as it is. DR states no bounds
check and no effect (N15, U15), so the byte may change any byte of the buffer, or none. -/
opaque Config.freeStray (load k a : Nat) : Option Byte

/-- Free value (log entry 19), safe: the byte that the `load`-th load reads from the `i`-th digit pair after the marker
where that pair is missing or is not hex, on a line with `line` lines after it. DR names no value for it (R225). -/
opaque Config.freeHexByte (load line i : Nat) : Byte

/-- Free value (log entry 19), safe: whether the `load`-th load fails a line with malformed-file because one of its digit
pairs is missing or is not hex, `line` lines standing after it. DR names no such check, and no result without it (R225). -/
opaque Config.freeReject (load line : Nat) : Bool

end Sys2Proof
end

