-- ==== Sys2Proof/Syntax.lean ====
section
/-! DEFINITION. The instructions: one constructor per row of the opcode table, and the two shapes in which an
instruction is presented (a command word with its operand; the levels of a wire format). -/

namespace Sys2Proof

/-- A byte memory: (address, byte) pairs in the canonical form of `Machine.Memory.wf`; an address that is not listed
holds the filler byte. -/
abbrev Memory := List Host.Cell

/-- The rows of the opcode table. -/
inductive Instr where
  /-- SELECT n, n of 4 bits so that an invalid index can be expressed (R97, R140). -/
  | select (n : BitVec 4)
  /-- BURN (R180). -/
  | burn
  /-- TOGGLE_BUS (R205). -/
  | toggleBus
  /-- REPLACE_IMAGE with its operand IMG_IN, "a list of exactly 4096 bytes presented with the command" (R97, R120),
  held as the memory in which address a holds IMG_IN[a] (log entry 12). -/
  | replaceImage (img : Memory)
  /-- HEADER, the wire format of the header phase (R91, R147). -/
  | header
  /-- BYTECELL, the wire format of one byte of the data phase (R92, R150, R151). -/
  | byteCell (d : Byte)
deriving DecidableEq, Repr

/-- What the host puts at the command port: the word CMD and, for REPLACE_IMAGE only, the operand IMG_IN (R44). -/
structure Request where
  cmd : Byte
  imgIn : Memory
deriving DecidableEq, Repr

/-- The two kinds of encoding of 30_encoding.md: a command word with its out-of-band operand, or the levels of a wire
format in the order they are driven. -/
inductive Code where
  | command (r : Request)
  | wire (levels : List Level)
deriving DecidableEq, Repr

/-- Why the decoder rejects: an illegal command word (R98); an operand that is no 4096-byte value (R121); levels that
are neither wire format. -/
inductive Reject where
  | badCommand
  | operandShape
  | notAWireFormat
deriving DecidableEq, Repr

end Sys2Proof
end

