-- ==== Sys2Proof/Machine/Memory.lean ====
section
/-! DEFINITION. Byte memories as canonical lists of cells: read, read of a range, write of a range. -/

namespace Sys2Proof

/-- What an address that no cell lists reads as. DESIGN CHOICE (log entries 5 and 6): the spec gives IMG no value
before a load (D21 allows any filler) and leaves the content of EE to the device. -/
def Memory.filler : Byte := 0

/-- One byte. -/
def Memory.read : Memory → Nat → Byte
  | [], _ => Memory.filler
  | (k, v) :: m, a => if k = a then v else Memory.read m a

/-- The canonical form from address `lo` on: addresses strictly rising and below `bound`, no cell equal to the
filler. -/
def Memory.wfFrom (lo bound : Nat) : Memory → Bool
  | [] => true
  | (k, v) :: m => decide (lo ≤ k) && decide (k < bound) && decide (v ≠ Memory.filler) && Memory.wfFrom (k + 1) bound m

/-- The canonical form of a memory of `bound` bytes. -/
def Memory.wf (bound : Nat) (m : Memory) : Bool := Memory.wfFrom 0 bound m

/-- `n` bytes from address `a`, lowest address first (R16 MemRead, EeRead). -/
def Memory.readBytes (m : Memory) (a n : Nat) : List Byte := (List.range n).map fun i => m.read (a + i)

/-- The cells that hold `bs` from address `a` on. -/
def Memory.cells (a : Nat) : List Byte → Memory
  | [] => []
  | b :: bs => if b = Memory.filler then Memory.cells (a + 1) bs else (a, b) :: Memory.cells (a + 1) bs

/-- The memory with the bytes `bs` written from address `a` on, every other byte unchanged (R16 MemWrite, EeWrite). -/
def Memory.writeBytes (m : Memory) (a : Nat) (bs : List Byte) : Memory :=
  m.filter (fun c => decide (c.1 < a)) ++ (Memory.cells a bs ++ m.filter fun c => decide (a + bs.length ≤ c.1))

/-- N_SLOTS × SLOT_BYTES, the size of IMG (R8, R20). -/
def imgBytes : Nat := 4096

end Sys2Proof
end

