-- ==== Sys2Proof/Machine/State.lean ====
section
/-! DEFINITION. The machine's state as the spec gives it, the reasons a step can stop, and the state after reset. -/

namespace Sys2Proof.Machine

/-- OP, the operation-and-phase register (R23). The eighth value is "never reached by any rule; a model need not
represent it". -/
inductive Op where
  | idle
  | xferNotify
  | xferHeader
  | xferData
  | eeProbe
  | eeWrite
  | eeVerify
deriving DecidableEq, Repr

/-- The 3-bit encoding of OP (R23). -/
def Op.code : Op → BitVec 3
  | .idle => 0
  | .xferNotify => 1
  | .xferHeader => 2
  | .xferData => 3
  | .eeProbe => 4
  | .eeWrite => 5
  | .eeVerify => 6

/-- The codes of STATUS (R250); 7 to 15 are never written. -/
inductive Status where
  | ok
  | noImage
  | invalidIndex
  | transferTimeout
  | verifyMismatch
  | deviceNotPresent
  | badCommand
deriving DecidableEq, Repr

/-- The 4-bit encoding of STATUS (R250). -/
def Status.code : Status → BitVec 4
  | .ok => 0
  | .noImage => 1
  | .invalidIndex => 2
  | .transferTimeout => 3
  | .verifyMismatch => 4
  | .deviceNotPresent => 5
  | .badCommand => 6

/-- What the block shows the outside besides its pins (R14): the events of R16's primitives, in the order they happen. -/
inductive Event where
  /-- One watchdog service call, `WdtKick()` (R41). -/
  | wdtKick
  /-- One `ClkSample()` and the level it read (R37). -/
  | clkSample (c : Level)
  /-- A transfer starts: the notify line falls (R141). The TX of this transfer begins here (R160). -/
  | transferStart
  /-- The SDA level driven at a detected falling edge: the next element of TX (R160). -/
  | tx (v : Level)
  /-- One `EeProbe()` and its answer (R43). -/
  | eeProbe (present : Bool)
  /-- One `EeWrite(addr, n, v)`, n being the length of the bytes (R43, R94). -/
  | eeWrite (addr : Nat) (bytes : List Byte)
  /-- One `EeRead(addr, n)` and the bytes it answered (R43, R94). -/
  | eeRead (addr : Nat) (answer : List Byte)
  /-- `Report(S, info)` of a failure, with the number its info carries, if any (R262, R270). -/
  | failure (s : Status) (info : Option Nat)
  /-- `Report(FirstMismatch, (address, expected, read))` (R187). -/
  | firstMismatch (addr : Nat) (expected got : Byte)
deriving DecidableEq, Repr

/-- The name of a file on the host, as characters (R220). -/
abbrev Path := List Byte

/-- The host beside the block (R5), as far as its HexLoader needs it. No rule of the block reads it. -/
structure HexHost where
  /-- The host's parameters (R223, R227, R229). -/
  params : HexParams
  /-- The files the file-storage collaborator holds, by path (R236; log entry 23). -/
  files : List (Path × List Byte)
  /-- The persisted "last used" file path, if any (R232, R292, R296). -/
  lastUsed : Option Path
  /-- The model's own: how many loads have been run, each with free values of its own (log entry 19). -/
  loads : Nat
deriving DecidableEq, Repr

/-- The state. Every field up to `busPin` is the block's (INVENTORY.md names the rule of each); the rest is what stands
beside the block, the parameters and the record of outputs. -/
structure State where
  /-- IMG (R20). -/
  img : Memory
  /-- IMG_VALID (R21). -/
  imgValid : Bool
  /-- SEL (R22). -/
  sel : BitVec 3
  /-- OP (R23). -/
  op : Op
  /-- RESULT (R24). -/
  result : Bool
  /-- STATUS (R25). -/
  status : Status
  /-- BUSSEL (R26). -/
  busSel : BusSel
  /-- CL_NCNT (R27), a natural number. -/
  clNcnt : Nat
  /-- CL_TMO (R28), a natural number. -/
  clTmo : Nat
  /-- CL_PREV (R29). -/
  clPrev : Level
  /-- CL_EDGE (R30). -/
  clEdge : BitVec 6
  /-- CL_BYTE (R31). -/
  clByte : BitVec 10
  /-- CL_BIT (R32). -/
  clBit : BitVec 4
  /-- CL_CUR (R33). -/
  clCur : Byte
  /-- EE_ADDR (R34). -/
  eeAddr : BitVec 13
  /-- EE_MISM (R35). -/
  eeMism : BitVec 2
  /-- EE_MADDR (R36). -/
  eeMaddr : BitVec 12
  /-- SDA (R38). -/
  sda : Level
  /-- NOTIFY_N (R39). -/
  notifyN : Level
  /-- IRQ_LOCK (R40). -/
  irqLock : Bool
  /-- BUS_PIN (R42). -/
  busPin : BitVec 2
  /-- EE, the array of the external EEPROM: what a faithful device holds (R50, R76; log entry 4). -/
  ee : Memory
  /-- The host's HexLoader side: outside the block, as EE is (R5, R292). -/
  host : HexHost
  /-- The parameters of R9: no step changes them (R295; log entry 1). -/
  cfg : Params
  /-- The model's own: the requests the host will still present at the command port (R44; log entry 8). -/
  cmdIn : List Request
  /-- The model's own: the levels CLK will show at the next samples; free after the last (R37; log entry 2). -/
  clkIn : List Level
  /-- The model's own: the answers of EEDEV to the next probes; free after the last (R76; log entry 3). -/
  probeIn : List Bool
  /-- The model's own: for each of the next page reads the bits that come back wrong, byte by byte, a missing byte being
  read back right; free after the last read listed (R76; log entry 4). -/
  readErrIn : List (List Byte)
  /-- The model's own: how many free answers have been drawn (log entry 2). -/
  envIdx : Nat
  /-- The model's own: the process is restarted before the next step (R290, R293; log entry 15). -/
  restartIn : Bool
  /-- The model's own: the output events so far, newest first (R14; log entry 14). -/
  trace : List Event
deriving DecidableEq, Repr

/-- Why a step has no next state. Each is a case in which the spec enables no move; none is reachable by `step` from a
state that meets `State.Inv`. -/
inductive Fault where
  /-- Raised by the meanings of the four commands when OP ≠ IDLE: "a command is accepted only when OP = IDLE" (R44), the
  busy case "has no move in the model" (R269, U17). Safe. -/
  | portBusy
  /-- Raised by the meanings of HEADER and BYTECELL outside XFER_HEADER and XFER_DATA: a polling iteration is "enabled
  when OP = XFER_HEADER or OP = XFER_DATA" (R144). Safe. -/
  | phaseNotEnabled
  /-- Raised by the write and verify steps when EE_ADDR is outside the domain on which ChunkLen is defined,
  0 ≤ a < LIMIT and a mod EE_PAGE = 0 (R184). Safe. -/
  | chunkUndefined
deriving DecidableEq, Repr

/-- Why an instruction has no meaning. -/
inductive Refusal where
  /-- The instruction has no meaning in the model yet; raised by no arm of `exec`. Safe. -/
  | notModelled (mnemonic : String)
  /-- Raised by REPLACE_IMAGE, and by the port, for an operand that is no 4096-byte value: it "is not a REPLACE_IMAGE"
  (R121). Safe. -/
  | operandShape
deriving DecidableEq, Repr

/-- The outcome of a step of this machine. -/
abbrev Outcome := Host.Outcome State Fault Refusal

/-- The state after reset (R52, R291) of a process with parameters `p`: the environment has given nothing yet. -/
def State.resetWith (p : Params) : State where
  img := []
  imgValid := false
  sel := 0
  op := .idle
  result := false
  status := .ok
  busSel := .onboard
  clNcnt := 0
  clTmo := 0
  clPrev := true
  clEdge := 0
  clByte := 0
  clBit := 0
  clCur := 0
  eeAddr := 0
  eeMism := 0
  eeMaddr := 0
  sda := true
  notifyN := true
  irqLock := false
  busPin := p.busPins .onboard
  ee := []
  host := { params := Config.hexParams, files := [], lastUsed := none, loads := 0 }
  cfg := p
  cmdIn := []
  clkIn := []
  probeIn := []
  readErrIn := []
  envIdx := 0
  restartIn := false
  trace := []

/-- The machine right after reset. -/
def State.reset : State := State.resetWith Config.params

end Sys2Proof.Machine
end

