-- ==== Sys2Proof/Machine/Flags.lean ====
section
/-! DEFINITION. The one-bit computations of the rules: the falling-edge detector, the line levels of header and byte
cell, the contexts, the watchdog schedule of the notify wait. -/

namespace Sys2Proof.Machine

/-- A falling edge: a sample of 0 directly after a sample of 1 (R146). -/
def fallingEdge (prev sample : Level) : Bool := prev && !sample

/-- The SDA level at header edge `k`: low exactly at 8, 17, 26 and 36 (R147). -/
def headerLevel (k : Nat) : Level := !(k == 8 || k == 17 || k == 26 || k == 36)

/-- The SDA level at edge `j` of the cell of byte `d`: bit 8 − j for j = 1 to 8, high at the gap (R60, R92). -/
def cellLevel (d : Byte) (j : Nat) : Level := if j ≤ 8 then d.getLsbD (8 - j) else true

/-- The phases of a transfer, in which the block is in the locked context (R266). -/
def Op.inTransfer : Op → Bool
  | .xferNotify => true
  | .xferHeader => true
  | .xferData => true
  | .idle => false
  | .eeProbe => false
  | .eeWrite => false
  | .eeVerify => false

/-- The phases in which CLK is sampled (R153). -/
def Op.polling : Op → Bool
  | .xferHeader => true
  | .xferData => true
  | .idle => false
  | .xferNotify => false
  | .eeProbe => false
  | .eeWrite => false
  | .eeVerify => false

/-- Whether a notify-wait iteration services the watchdog (R142). -/
def kickDue (p : Params) (ncnt : Nat) : Bool := (p.notifyIter - ncnt) % p.wdtNotifyPeriod == 0

/-- RESULT of a TOGGLE_BUS: 1 exactly when the bus is now ONBOARD (R24, R205). -/
def onboardFlag : BusSel → Bool
  | .onboard => true
  | .external => false

/-- STATUS ++ RESULT as the host reads them (R48). -/
def statusWord (s : State) : BitVec 5 := s.status.code ++ BitVec.ofBool s.result

end Sys2Proof.Machine
end

