-- ==== Sys2Proof/Machine/HexLoader.lean ====
section
/-! DEFINITION. The host-side HexLoader of 43_host_hexloader.md: outside the block, its one effect on it a REPLACE_IMAGE
request (R221). What DR leaves open is a parameter or a free value (log entry 19): every load has a LoadResult. -/

namespace Sys2Proof.Machine

/-- LoadResult (R233). -/
inductive LoadResult where
  | success
  | fileNotFound
  | malformedFile
  | checksumError
deriving DecidableEq, Repr

/-- The numbers of R233. -/
def LoadResult.code : LoadResult → Nat
  | .success => 0
  | .fileNotFound => 1
  | .malformedFile => 2
  | .checksumError => 3

/-- A HexRecord (R225). -/
structure HexRecord where
  count : Nat
  addr : Nat
  kind : Nat
  payload : List Byte
  checksum : Byte
deriving DecidableEq, Repr

/-- The staging buffer: the bytes placed so far, each with its address, newest first (R226). -/
abbrev Staging := List (Nat × Byte)

/-- The outcome of one line. -/
inductive LineOutcome where
  /-- A data record whose checksum is good: the buffer with its bytes placed. -/
  | placed (b : Staging)
  /-- An end-of-file record. -/
  | eof
  /-- A failure of the load. -/
  | failed (r : LoadResult)
deriving DecidableEq, Repr

/-- The outcome of a whole load: the LoadResult; on success the staged image and whether the path is persisted as "last
used" (R232). -/
structure LoadReport where
  result : LoadResult
  staged : Option Memory
  persistPath : Bool
deriving DecidableEq, Repr

/-- The value of a hex digit character, either case. -/
def hexDigit (c : Byte) : Option Nat :=
  if 48 ≤ c.toNat ∧ c.toNat ≤ 57 then some (c.toNat - 48)
  else if 65 ≤ c.toNat ∧ c.toNat ≤ 70 then some (c.toNat - 55)
  else if 97 ≤ c.toNat ∧ c.toNat ≤ 102 then some (c.toNat - 87)
  else none

/-- Two hex digits, the high one first (R225). -/
def hexByte (hi lo : Byte) : Option Byte :=
  match hexDigit hi, hexDigit lo with
  | some h, some l => some (BitVec.ofNat 8 (16 * h + l))
  | _, _ => none

/-- `n` bytes "decoded pairwise" from the front of a line, and the rest (R226). -/
def hexBytes : Nat → List Byte → Option (List Byte × List Byte)
  | 0, cs => some ([], cs)
  | n + 1, hi :: lo :: cs =>
    match hexByte hi lo, hexBytes n cs with
    | some b, some (bs, rest) => some (b :: bs, rest)
    | _, _ => none
  | _ + 1, _ => none

/-- The fields of a line after its marker: LL AAAA TT payload CC (R225). Characters after CC are not looked at. -/
def decodeRecord (cs : List Byte) : Option HexRecord :=
  match hexBytes 4 cs with
  | some ([ll, ah, al, tt], rest) =>
    match hexBytes (ll.toNat + 1) rest with
    | some (bs, _) =>
      some
        { count := ll.toNat
          addr := 256 * ah.toNat + al.toNat
          kind := tt.toNat
          payload := bs.take ll.toNat
          checksum := bs.getD ll.toNat 0 }
    | none => none
  | _ => none

/-- The byte in the `i`-th pair of hex digits after the marker: 0 is LL, 1 and 2 AAAA, 3 TT, then the payload and CC
(R225). -/
def pairAt : List Byte → Nat → Option Byte
  | hi :: lo :: _, 0 => hexByte hi lo
  | _ :: _ :: cs, i + 1 => pairAt cs i
  | _, _ => none

/-- The byte in a pair, free where the pair is missing or is not hex (log entry 19). -/
def byteAt (load line : Nat) (cs : List Byte) (i : Nat) : Byte := (pairAt cs i).getD (Config.freeHexByte load line i)

/-- The running sum of a line modulo 256: LL + AAAA[15:8] + AAAA[7:0] + TT + payload + CC (R229). -/
def HexRecord.sum (r : HexRecord) : Byte :=
  BitVec.ofNat 8 r.count + BitVec.ofNat 8 (r.addr / 256) + BitVec.ofNat 8 r.addr + BitVec.ofNat 8 r.kind +
    r.payload.foldr (· + ·) 0 + r.checksum

/-- Payload byte i goes to staging[addr + i]; no bounds check is made (R226, U15). -/
def place (b : Staging) (addr : Nat) : List Byte → Staging
  | [] => b
  | d :: ds => place ((addr, d) :: b) (addr + 1) ds

/-- The record on a line after its marker, `line` lines standing after it. Where a pair of digits is missing or is not
hex, a line whose TT cannot be read carries no record of type 0 or 1 and is `none`, as a line the load rejects is; else
every field that can be read is as the line has it, TT with them, and the others are free (R225, R228; log entry 19). -/
def readRecord (load line : Nat) (cs : List Byte) : Option HexRecord :=
  match decodeRecord cs with
  | some r => some r
  | none =>
    match pairAt cs 3 with
    | none => none
    | some tt =>
      if Config.freeReject load line then none
      else
        let byte := byteAt load line cs
        some
          { count := (byte 0).toNat
            addr := 256 * (byte 1).toNat + (byte 2).toNat
            kind := tt.toNat
            payload := (List.range (byte 0).toNat).map fun i => byte (4 + i)
            checksum := byte (4 + (byte 0).toNat) }

/-- One non-empty line: marker, decoding, type dispatch, checksum, in this order (R225 to R231). -/
def processLine (h : HexParams) (load line : Nat) (b : Staging) : List Byte → LineOutcome
  | [] => .placed b
  | c :: cs =>
    if c ≠ 58 then .failed .malformedFile
    else
      match readRecord load line cs with
      | none => .failed .malformedFile
      | some r =>
        if r.kind = 0 then
          if r.sum ≠ 0 then .failed .checksumError else .placed (place b r.addr r.payload)
        else if r.kind = 1 then
          if h.checkEofSum && r.sum ≠ 0 then .failed .checksumError else .eof
        else .failed .malformedFile

/-- The outcome of the lines: `.ok b` when an end-of-file record was seen and no line failed (R227, R230). Empty lines
are passed over (R225). -/
def processLines (h : HexParams) (load : Nat) (b : Staging) (seenEof : Bool) :
    List (List Byte) → Except LoadResult Staging
  | [] => if seenEof then .ok b else .error .malformedFile
  | l :: ls =>
    if l = [] then processLines h load b seenEof ls
    else
      match processLine h load ls.length b l with
      | .placed b' => processLines h load b' seenEof ls
      | .eof => if h.applyAfterEof then processLines h load b true ls else .ok b
      | .failed r => .error r

/-- The line-ending styles (R224). -/
inductive Eol where
  | crlf
  | lf
  | cr
deriving DecidableEq, Repr

/-- Which style the file uses, from its first line ending (R224). -/
def detectEol : List Byte → Eol
  | [] => .lf
  | c :: cs =>
    if c = 13 then
      match cs with
      | d :: _ => if d = 10 then .crlf else .cr
      | [] => .cr
    else if c = 10 then .lf
    else detectEol cs

/-- The line that a list of lines begins with, made longer by one character in front. -/
def consLine (c : Byte) : List (List Byte) → List (List Byte)
  | [] => [[c]]
  | l :: ls => (c :: l) :: ls

/-- The lines of a file, split at each terminator of the style (R224). -/
def splitLines (e : Eol) : List Byte → List (List Byte)
  | [] => [[]]
  | [c] =>
    if (e = .lf ∧ c = 10) ∨ (e = .cr ∧ c = 13) then [[], []] else [[c]]
  | c :: d :: cs =>
    if (e = .lf ∧ c = 10) ∨ (e = .cr ∧ c = 13) then [] :: splitLines e (d :: cs)
    else if e = .crlf ∧ c = 13 ∧ d = 10 then [] :: splitLines e cs
    else consLine c (splitLines e (d :: cs))

/-- The byte of the staging buffer at `a` < 4096: the one placed there last, unless a byte placed outside the buffer has
changed it since; what the buffer held before where no record covers it (R226, N15, U15; log entry 19). -/
def stagedByte (load : Nat) : Staging → Nat → Byte
  | [], a => Config.freeStaging load a
  | (k, v) :: b, a =>
    if k = a then v
    else if k < imgBytes then stagedByte load b a
    else (Config.freeStray load b.length a).getD (stagedByte load b a)

/-- The 4096 bytes of the staging buffer as an image (R221). -/
def stagedImage (load : Nat) (b : Staging) : Memory := Memory.cells 0 ((List.range imgBytes).map (stagedByte load b))

/-- The HexLoader on the file at a path, `none` being no file there, in the `load`-th load; `first` says that this is the
first load at process start (R220 to R232). -/
def loadFile (h : HexParams) (load : Nat) (first : Bool) : Option (List Byte) → LoadReport
  | none => { result := .fileNotFound, staged := none, persistPath := false }
  | some bytes =>
    if bytes.length ≠ h.sizeCrlf ∧ bytes.length ≠ h.sizeLf then
      { result := .malformedFile, staged := none, persistPath := false }
    else
      match processLines h load [] false (splitLines (detectEol bytes) bytes) with
      | .error r => { result := r, staged := none, persistPath := false }
      | .ok b => { result := .success, staged := some (stagedImage load b), persistPath := !first }

/-- The file at a path, if there is one (R222, R236). -/
def fileAt : List (Path × List Byte) → Path → Option (List Byte)
  | [], _ => none
  | (p, bytes) :: files, path => if p = path then some bytes else fileAt files path

/-- What a load issues to the block: REPLACE_IMAGE with the staging buffer on success, else nothing (R102, R221). -/
def LoadReport.requests (rep : LoadReport) : List Request :=
  match rep.staged with
  | some m => [{ cmd := 0x40, imgIn := m }]
  | none => []

/-- A load of the file at a path: its report, and the host after it, with the path persisted as "last used" where the
report says so (R232). -/
def HexHost.load (h : HexHost) (first : Bool) (path : Path) : LoadReport × HexHost :=
  let rep := loadFile h.params h.loads first (fileAt h.files path)
  (rep, { h with lastUsed := if rep.persistPath then some path else h.lastUsed, loads := h.loads + 1 })

/-- The start of the process on the host's side: the automatic first load of the last-used file, where a path is
persisted; what it issues, and the host after it (R232, R296; log entry 23). -/
def HexHost.start (h : HexHost) : List Request × HexHost :=
  match h.lastUsed with
  | none => ([], h)
  | some path => ((h.load true path).1.requests, (h.load true path).2)

/-- The character of a hex digit (upper case), as an encoder of Intel-HEX writes it. -/
def hexChar (n : Nat) : Byte := if n < 10 then BitVec.ofNat 8 (48 + n) else BitVec.ofNat 8 (55 + n)

/-- The two hex digits of a byte, the high one first (R225). -/
def renderByte (b : Byte) : List Byte := [hexChar (b.toNat / 16), hexChar (b.toNat % 16)]

/-- The hex digits of several bytes, pairwise (R226). -/
def renderBytes : List Byte → List Byte
  | [] => []
  | b :: bs => renderByte b ++ renderBytes bs

/-- The bytes of a record in the order of the fields on its line: LL AAAA TT payload CC (R225). -/
def HexRecord.bytes (r : HexRecord) : List Byte :=
  BitVec.ofNat 8 r.count :: BitVec.ofNat 8 (r.addr / 256) :: BitVec.ofNat 8 r.addr :: BitVec.ofNat 8 r.kind ::
    (r.payload ++ [r.checksum])

/-- The line of a record, with its marker and without a terminator (R225): the encoder's side of the round trip of
R235. -/
def HexRecord.line (r : HexRecord) : List Byte := 58 :: renderBytes r.bytes

/-- A record a line can carry (R225): the byte-count is the payload's length, the fields fit their widths. -/
def HexRecord.wf (r : HexRecord) : Bool :=
  decide (r.count = r.payload.length) && decide (r.count < 256) && decide (r.addr < 65536) && decide (r.kind < 256)

/-- The end-of-file record `:00000001FF` (R227, R237). -/
def eofRecord : HexRecord := { count := 0, addr := 0, kind := 1, payload := [], checksum := 0xFF }

/-- The terminator characters of a style (R224). -/
def Eol.chars : Eol → List Byte
  | .crlf => [13, 10]
  | .lf => [10]
  | .cr => [13]

/-- A file of records, each line ended in the given style (R235). -/
def renderFile (e : Eol) : List HexRecord → List Byte
  | [] => []
  | r :: rs => r.line ++ e.chars ++ renderFile e rs

/-- The staging buffer after data records (R226). -/
def placeAll (b : Staging) : List HexRecord → Staging
  | [] => b
  | r :: rs => placeAll (place b r.addr r.payload) rs

end Sys2Proof.Machine
end

