-- ==== Sys2Proof/Machine/Operands.lean ====
section
/-! DEFINITION. The operand and address forms: the index of SELECT, slot base plus byte offset, the linear EEPROM
address and its chunks. -/

namespace Sys2Proof.Machine

/-- The index n = zext(CMD[3:0]) names a slot: n ≤ 7 (R97, R124). -/
def indexValid (n : BitVec 4) : Bool := decide (n.toNat ≤ 7)

/-- SEL for a valid index (R124). -/
def indexSel (n : BitVec 4) : BitVec 3 := n.setWidth 3

/-- The image address of a fetch, slot base plus byte offset (R158). -/
def fetchAddr (sel : BitVec 3) (byte : Nat) : Nat := 512 * sel.toNat + byte

/-- The byte a fetch reads (R149, R151). -/
def State.fetchByte (s : State) (byte : Nat) : Byte := s.img.read (fetchAddr s.sel byte)

/-- LIMIT = min(4096, EE_CAP) (R184). -/
def limit (p : Params) : Nat := min imgBytes p.eeCap

/-- ChunkLen(a) = min(EE_PAGE, LIMIT − a) (R184). -/
def chunkLen (p : Params) (a : Nat) : Nat := min p.eePage (limit p - a)

/-- The domain of ChunkLen: 0 ≤ a < LIMIT and a mod EE_PAGE = 0 (R184). -/
def chunkDefined (p : Params) (a : Nat) : Bool := decide (a < limit p) && decide (a % p.eePage = 0)

/-- The number of chunks of a burn, ⌈LIMIT / EE_PAGE⌉ (R184). -/
def chunkCount (p : Params) : Nat := (limit p + p.eePage - 1) / p.eePage

/-- The image bytes of the chunk at `a` (R186, R187). -/
def State.imageChunk (s : State) (a : Nat) : List Byte := s.img.readBytes a (chunkLen s.cfg a)

end Sys2Proof.Machine
end

