-- ==== Sys2Proof/Machine/Ops.lean ====
section
/-! DEFINITION. The shared operations: output events, the environment's answers, completion, the abort that every
failure takes, the bus mutator, the EEPROM device, the host's loadFirmware, the restart of the process. -/

namespace Sys2Proof.Machine

/-- One more output event (R14). -/
def State.emit (s : State) (e : Event) : State := { s with trace := e :: s.trace }

/-- `WdtKick()` (R16, R41). -/
def State.wdtKick (s : State) : State := s.emit .wdtKick

/-- The level CLK shows at the next sample: the DSP's choice (R12, R37). -/
def State.clkLevel (s : State) : Level :=
  match s.clkIn with
  | c :: _ => c
  | [] => Config.freeClk s.envIdx

/-- `ClkSample()`: the sample is taken (R16). The level read is `s.clkLevel`. -/
def State.takeSample (s : State) : State :=
  { s with
    clkIn := s.clkIn.tail
    envIdx := if s.clkIn = [] then s.envIdx + 1 else s.envIdx
    trace := .clkSample s.clkLevel :: s.trace }

/-- What the next `EeProbe()` answers (R76). -/
def State.probeAnswer (s : State) : Bool :=
  match s.probeIn with
  | p :: _ => p
  | [] => Config.freeProbe s.envIdx

/-- `EeProbe()`: the probe is made (R16). The answer is `s.probeAnswer`. -/
def State.takeProbe (s : State) : State :=
  { s with
    probeIn := s.probeIn.tail
    envIdx := if s.probeIn = [] then s.envIdx + 1 else s.envIdx
    trace := .eeProbe s.probeAnswer :: s.trace }

/-- Which bits of the `i`-th byte of the next page read come back wrong (R76). -/
def State.readError (s : State) (i : Nat) : Byte :=
  match s.readErrIn with
  | e :: _ => e.getD i 0
  | [] => Config.freeReadError s.envIdx i

/-- What the next `EeRead(a, n)` answers: n bytes, each the byte of EE but for the wrong bits (R76; log entry 4). -/
def State.readAnswer (s : State) (a n : Nat) : List Byte :=
  (List.range n).map fun i => s.ee.read (a + i) ^^^ s.readError i

/-- `EeRead(a, n)`: the page read is made (R16). The answer is `s.readAnswer a n`. -/
def State.takeRead (s : State) (a n : Nat) : State :=
  { s with
    readErrIn := s.readErrIn.tail
    envIdx := if s.readErrIn = [] then s.envIdx + 1 else s.envIdx
    trace := .eeRead a (s.readAnswer a n) :: s.trace }

/-- `EeWrite(a, n, v)`, n being the length of `v` (R16, R76 (b)). -/
def State.eeWrite (s : State) (a : Nat) (v : List Byte) : State :=
  { s with ee := s.ee.writeBytes a v, trace := .eeWrite a v :: s.trace }

/-- `done(v)`: RESULT <- v, STATUS <- OK (R16). -/
def State.complete (s : State) (v : Bool) : State := { s with result := v, status := .ok }

/-- `raise S(info)`, the abort actions that every failure takes, in one step (R262): in a transfer the lines go back to
idle-high and the lock is released; RESULT <- 0, STATUS <- S, a report, OP <- IDLE. Nothing is saved. -/
def State.raise (s : State) (st : Status) (info : Option Nat) : State :=
  { s with
    sda := if s.op.inTransfer then true else s.sda
    notifyN := if s.op.inTransfer then true else s.notifyN
    irqLock := if s.op.inTransfer then false else s.irqLock
    result := false
    status := st
    trace := .failure st info :: s.trace
    op := .idle }

/-- SetBus(s), the single mutator of the bus state (R206). -/
def State.setBus (s : State) (b : BusSel) : State := { s with busSel := b, busPin := s.cfg.busPins b }

/-- A command is taken only when OP = IDLE (R44); otherwise it has no move (R269). -/
def State.whenIdle (s : State) (o : Outcome) : Outcome := if s.op = .idle then o else .fault .portBusy

/-- `loadFirmware(path)`, the host's operation: its LoadResult and the state after it. Only a success issues a command to
the block, behind what the host already presents (R102, R220, R221, R232; log entry 19). -/
def State.loadFirmware (s : State) (path : Path) : LoadResult × State :=
  ((s.host.load false path).1.result,
    { s with cmdIn := s.cmdIn ++ (s.host.load false path).1.requests, host := (s.host.load false path).2 })

/-- The restart of the process (R290 to R293): the block is in the reset state; the EEPROM keeps what it holds, the
environment and the host go on, the outputs shown so far stay shown. The host begins with its automatic load, whose
REPLACE_IMAGE, if it succeeds, stands before all other requests (R232, R296; log entry 23). -/
def State.restart (s : State) : State :=
  { State.resetWith s.cfg with
    ee := s.ee
    host := s.host.start.2
    cmdIn := s.host.start.1 ++ s.cmdIn
    clkIn := s.clkIn
    probeIn := s.probeIn
    readErrIn := s.readErrIn
    envIdx := s.envIdx
    trace := s.trace }

end Sys2Proof.Machine
end

