-- ==== Sys2Proof/Machine/BusSelect.lean ====
section
/-! DEFINITION. TOGGLE_BUS, 42_eeprom_programmer.md section 6. -/

namespace Sys2Proof.Machine

/-- TOGGLE_BUS: SetBus of the other state; RESULT = 1 exactly when the bus is now ONBOARD (R205). -/
def execToggleBus (s : State) : Outcome :=
  s.whenIdle (.next ((s.setBus s.busSel.other).complete (onboardFlag s.busSel.other)))

end Sys2Proof.Machine
end

