-- ==== Sys2Proof/Machine/Image.lean ====
section
/-! DEFINITION. The image commands of 40_image_commands.md: REPLACE_IMAGE, and the select step of SELECT. -/

namespace Sys2Proof.Machine

/-- MemWrite(0, 4096, IMG_IN); IMG_VALID <- 1; SEL <- 0; done(1) (R120). -/
def State.replaceImage (s : State) (img : Memory) : State :=
  { s with img := img, imgValid := true, sel := 0 }.complete true

/-- REPLACE_IMAGE (R120). An operand that is no 4096-byte value is not a REPLACE_IMAGE (R121). -/
def execReplaceImage (img : Memory) (s : State) : Outcome :=
  s.whenIdle (if Memory.wf imgBytes img then .next (s.replaceImage img) else .refused .operandShape)

/-- SelectStep(n) (R124) followed by `k` on success: the index is tested first, the image second (R261 (1)). -/
def State.selectStep (s : State) (n : BitVec 4) (k : State → State) : State :=
  if indexValid n = false then s.raise .invalidIndex (some n.toNat)
  else if s.imgValid = false then s.raise .noImage none
  else k { s with sel := indexSel n }

end Sys2Proof.Machine
end

