-- ==== Sys2Proof/Machine/ChipLink.lean ====
section
/-! DEFINITION. ChipLink, the program transfer of 41_chiplink_transfer.md: SELECT, the notify pulse, the polling
iteration with its two edge actions. -/

namespace Sys2Proof.Machine

/-- TransferStart (R141). NOTIFY_N is driven high and then low in the same step. -/
def State.transferStart (s : State) : State :=
  { s with
    irqLock := true
    sda := true
    notifyN := false
    clNcnt := s.cfg.notifyIter
    op := .xferNotify
    trace := .transferStart :: s.trace }

/-- SELECT n: the acceptance step (R140). The transfer it starts goes on one step at a time. -/
def execSelect (n : BitVec 4) (s : State) : Outcome := s.whenIdle (.next (s.selectStep n State.transferStart))

/-- NotifyWait (R142). -/
def State.notifyWait (s : State) : State :=
  if kickDue s.cfg s.clNcnt then { s with clNcnt := s.clNcnt - 1 }.wdtKick else { s with clNcnt := s.clNcnt - 1 }

/-- NotifyRelease (R143). -/
def State.notifyRelease (s : State) : State :=
  { s with notifyN := true, clEdge := 0, clPrev := true, clTmo := s.cfg.hdrTimeout, op := .xferHeader }

/-- The step of XFER_NOTIFY: a wait while CL_NCNT > 0, then the release (R142, R143). -/
def notifyStep (s : State) : Outcome := .next (if s.clNcnt = 0 then s.notifyRelease else s.notifyWait)

/-- The sampling part of Poll: CL_TMO <- CL_TMO − 1, WdtKick(), ClkSample(), CL_PREV <- the sample (R144). -/
def State.sampled (s : State) : State :=
  let t := { s with clTmo := s.clTmo - 1 }.wdtKick
  { t.takeSample with clPrev := t.clkLevel }

/-- The budget is loaded again at a falling edge when TMO_PER_EDGE (R144, R148). -/
def State.reload (s : State) (budget : Nat) : State := if s.cfg.tmoPerEdge then { s with clTmo := budget } else s

/-- Poll, one polling iteration with the phase's budget and edge action (R144). The budget is tested before the line is
sampled (R261 (2)). -/
def State.poll (s : State) (budget : Nat) (edge : State → State) : State :=
  if s.clTmo = 0 then s.raise .transferTimeout none
  else if fallingEdge s.clPrev s.clkLevel then edge (s.sampled.reload budget)
  else s.sampled

/-- A level is driven on SDA at a detected falling edge: the next element of TX (R160). -/
def State.drive (s : State) (v : Level) : State := { s with sda := v, trace := .tx v :: s.trace }

/-- EnterData (R149). -/
def State.enterData (s : State) : State :=
  { s with clByte := 0, clBit := 0, clCur := s.fetchByte 0, clTmo := s.cfg.dataTimeout, op := .xferData }

/-- HeaderEdge (R147). -/
def State.headerEdge (s : State) : State :=
  let k := s.clEdge.toNat + 1
  let t := { s with clEdge := BitVec.ofNat 6 k }.drive (headerLevel k)
  if k = 37 then t.enterData else t

/-- Finish (R156). -/
def State.finish (s : State) : State := { s with irqLock := false, op := .idle }.complete true

/-- GapEdge (R151). -/
def State.gapEdge (s : State) : State :=
  let b := s.clByte.toNat + 1
  let t := { s with clBit := 0, clByte := BitVec.ofNat 10 b }.drive true
  if b < 512 then { t with clCur := t.fetchByte b } else t.finish

/-- DataEdge while byte `d` is being sent (R150). -/
def State.dataEdge (d : Byte) (s : State) : State :=
  let j := s.clBit.toNat + 1
  if j ≤ 8 then { s with clBit := BitVec.ofNat 4 j }.drive (cellLevel d j) else s.gapEdge

/-- HEADER: one polling iteration of the header phase (R144, R147). -/
def execHeader (s : State) : Outcome :=
  if s.op = .xferHeader then .next (s.poll s.cfg.hdrTimeout State.headerEdge) else .fault .phaseNotEnabled

/-- BYTECELL d: one polling iteration of the data phase while byte `d` is being sent (R144, R150, R151). -/
def execByteCell (d : Byte) (s : State) : Outcome :=
  if s.op = .xferData then .next (s.poll s.cfg.dataTimeout (State.dataEdge d)) else .fault .phaseNotEnabled

end Sys2Proof.Machine
end

