-- ==== Sys2Proof/Machine/Eeprom.lean ====
section
/-! DEFINITION. EepromProgrammer, 42_eeprom_programmer.md: BURN and its probe, write and verify steps. -/

namespace Sys2Proof.Machine

/-- BURN: the acceptance step (R180, R181). -/
def execBurn (s : State) : Outcome :=
  s.whenIdle (.next (if s.imgValid then { s with op := .eeProbe } else s.raise .noImage none))

/-- ProbeStep (R182). An absent device leaves OP in EE_PROBE, without bound (R183). -/
def State.probe (s : State) : State :=
  if s.probeAnswer then { s.takeProbe with status := .ok, eeAddr := 0, op := .eeWrite }
  else { s.takeProbe with status := .deviceNotPresent }

/-- The step of EE_PROBE. -/
def probeStep (s : State) : Outcome := .next s.probe

/-- WriteStep on a chunk of ChunkLen's domain (R186). -/
def State.writeChunk (s : State) : State :=
  let a := s.eeAddr.toNat
  let t := s.eeWrite a (s.imageChunk a)
  let a' := a + chunkLen s.cfg a
  if a' = limit s.cfg then { t with eeAddr := 0, eeMism := 0, eeMaddr := 0, op := .eeVerify }
  else { t with eeAddr := BitVec.ofNat 13 a' }

/-- The step of EE_WRITE. -/
def writeStep (s : State) : Outcome :=
  if chunkDefined s.cfg s.eeAddr.toNat then .next s.writeChunk else .fault .chunkUndefined

/-- The comparison of one byte at address `a` that differs: the first mismatch is recorded and reported (`some`: the
verification goes on), the second aborts it (R187). -/
def State.mismatch (s : State) (a : Nat) (e r : Byte) : State × Bool :=
  let t := { s with eeMism := s.eeMism + 1 }
  if t.eeMism = 1 then (({ t with eeMaddr := BitVec.ofNat 12 a }).emit (.firstMismatch a e r), false)
  else (t.raise .verifyMismatch (some a), true)

/-- The byte-by-byte comparison of (expected, read) pairs from address `a` on, in ascending order; the Boolean says that
a second mismatch ended it (R187). -/
def State.compare (s : State) (a : Nat) : List (Byte × Byte) → State × Bool
  | [] => (s, false)
  | (e, r) :: rest =>
    if r = e then s.compare (a + 1) rest
    else
      match s.mismatch a e r with
      | (t, true) => (t, true)
      | (t, false) => t.compare (a + 1) rest

/-- The end of a verify chunk in which no second mismatch was found (R187). -/
def State.verifyAdvance (s : State) (a' : Nat) : State :=
  let t := { s with eeAddr := BitVec.ofNat 13 a' }
  if a' = limit s.cfg then { t with op := .idle }.complete true else t

/-- VerifyStep on a chunk of ChunkLen's domain (R187). -/
def State.verifyChunk (s : State) : State :=
  let a := s.eeAddr.toNat
  let n := chunkLen s.cfg a
  match (s.takeRead a n).compare a ((s.imageChunk a).zip (s.readAnswer a n)) with
  | (t, true) => t
  | (t, false) => t.verifyAdvance (a + n)

/-- The step of EE_VERIFY. -/
def verifyStep (s : State) : Outcome :=
  if chunkDefined s.cfg s.eeAddr.toNat then .next s.verifyChunk else .fault .chunkUndefined

end Sys2Proof.Machine
end

