-- ==== Sys2Proof/Machine/Dispatch.lean ====
section
/-! DEFINITION. The meaning of every instruction: one arm per constructor. -/

namespace Sys2Proof.Machine

def exec (i : Instr) (s : State) : Host.Outcome State Fault Refusal :=
  match i with
  | .select n => Sys2Proof.Machine.execSelect n s
  | .burn => Sys2Proof.Machine.execBurn s
  | .toggleBus => Sys2Proof.Machine.execToggleBus s
  | .replaceImage img => Sys2Proof.Machine.execReplaceImage img s
  | .header => Sys2Proof.Machine.execHeader s
  | .byteCell d => Sys2Proof.Machine.execByteCell d s

end Sys2Proof.Machine
end

