-- ==== Sys2Proof/WellFormed.lean ====
section
/-! DEFINITION. Which terms of `Instr` the encodings can express. -/

namespace Sys2Proof

/-- A well-formed instruction: the operand of REPLACE_IMAGE is exactly 4096 bytes (R97, R121), that is, a canonical
memory with no address above 4095. Every 4-bit index of SELECT is expressible (R97) and every byte has a cell. -/
def Instr.wf : Instr → Bool
  | .select _ => true
  | .burn => true
  | .toggleBus => true
  | .replaceImage img => Memory.wf imgBytes img
  | .header => true
  | .byteCell _ => true

end Sys2Proof
end

