-- ==== Sys2Proof/Decode.lean ====
section
/-! DEFINITION. The decoder of command words and wire formats, and the encoder written from the same tables. -/

namespace Sys2Proof

/-- CMD[7:4], the operation code (R95). -/
def opcField (w : Byte) : BitVec 4 := w.extractLsb' 4 4

/-- CMD[3:0], the operand (R95). -/
def argField (w : Byte) : BitVec 4 := w.extractLsb' 0 4

/-- The opcode map of R96; every word outside it is illegal (R98). -/
def decodeCommand (r : Request) : Except Reject Instr :=
  if opcField r.cmd = 0x1 then .ok (.select (argField r.cmd))
  else if argField r.cmd ≠ 0 then .error .badCommand
  else if opcField r.cmd = 0x2 then .ok .burn
  else if opcField r.cmd = 0x3 then .ok .toggleBus
  else if opcField r.cmd = 0x4 then
    if Memory.wf imgBytes r.imgIn then .ok (.replaceImage r.imgIn) else .error .operandShape
  else .error .badCommand

/-- The header as R91 writes it out, falling edge 1 first: `1111111011111111011111111011111111101`. -/
def headerLevels : List Level :=
  [true, true, true, true, true, true, true, false,
   true, true, true, true, true, true, true, true, false,
   true, true, true, true, true, true, true, true, false,
   true, true, true, true, true, true, true, true, true, false,
   true]

/-- The byte whose bits from bit 7 down to bit 0 are given (R92). -/
def byteOfLevels (b7 b6 b5 b4 b3 b2 b1 b0 : Level) : Byte :=
  BitVec.ofNat 8
    (128 * b7.toNat + 64 * b6.toNat + 32 * b5.toNat + 16 * b4.toNat + 8 * b3.toNat + 4 * b2.toNat + 2 * b1.toNat +
      b0.toNat)

/-- The byte cell of R92: bits 7 to 0, then the gap, always high. -/
def cellLevels (d : Byte) : List Level :=
  [d.getLsbD 7, d.getLsbD 6, d.getLsbD 5, d.getLsbD 4, d.getLsbD 3, d.getLsbD 2, d.getLsbD 1, d.getLsbD 0, true]

/-- Which wire format a list of levels is. -/
def decodeWire (levels : List Level) : Except Reject Instr :=
  if levels = headerLevels then .ok .header
  else
    match levels with
    | [b7, b6, b5, b4, b3, b2, b1, b0, true] => .ok (.byteCell (byteOfLevels b7 b6 b5 b4 b3 b2 b1 b0))
    | _ => .error .notAWireFormat

/-- The decoder, total on every code. -/
def decode : Code → Except Reject Instr
  | .command r => decodeCommand r
  | .wire levels => decodeWire levels

/-- A command word of R96 from its two fields. -/
def commandWord (opc arg : BitVec 4) : Byte := opc ++ arg

/-- The code of a well-formed instruction, from the tables of R91, R92 and R96. -/
def encode : Instr → Code
  | .select n => .command { cmd := commandWord 0x1 n, imgIn := [] }
  | .burn => .command { cmd := 0x20, imgIn := [] }
  | .toggleBus => .command { cmd := 0x30, imgIn := [] }
  | .replaceImage img => .command { cmd := 0x40, imgIn := img }
  | .header => .wire headerLevels
  | .byteCell d => .wire (cellLevels d)

/-- The `n` lowest bits of a number as levels, the most significant first: a wire pattern read as a number has its
first level as the most significant bit (R91). -/
def levelsOfNat (n w : Nat) : List Level := (List.range n).map fun i => w.testBit (n - 1 - i)

/-- The code a table row's bits stand for: 8 bits are a command word, whose operand bits are all 0 (an operand of
4096 zero bytes); 9 bits, in whole bytes 16, are a byte cell and 37 bits, in whole bytes 40, a header (log entry
22). -/
def codeOfTableWord (nbits w : Nat) : Option Code :=
  if nbits = 8 then
    if w < 256 then some (.command { cmd := BitVec.ofNat 8 w, imgIn := [] }) else none
  else if nbits = 9 ∨ nbits = 16 then
    if w < 512 then some (.wire (levelsOfNat 9 w)) else none
  else if nbits = 37 ∨ nbits = 40 then
    if w < 137438953472 then some (.wire (levelsOfNat 37 w)) else none
  else none

/-- The instruction the decoder reads from a table row's bits. -/
def decodeTableWord (nbits w : Nat) : Option Instr :=
  match codeOfTableWord nbits w with
  | none => none
  | some c =>
    match decode c with
    | .ok i => some i
    | .error _ => none

end Sys2Proof
end

