-- ==== Sys2Proof/Machine/Fetch.lean ====
section
/-! DEFINITION. What the next step is: which instruction OP and the command port select, or which step of the command
in flight; and where an instruction is placed so that the next step runs it. -/

namespace Sys2Proof.Machine

/-- The next move of CORE: an instruction run on a state, or an outcome that no instruction of the table stands for. -/
inductive Action where
  | run (i : Instr) (s : State)
  | internal (o : Outcome)

/-- The command port with OP = IDLE (R44): the host's next request is taken from the port and decoded. An illegal word is
refused with BadCommand and changes nothing else (R98, R256); with no request the block waits. -/
def acceptCommand (s : State) : Action :=
  match s.cmdIn with
  | [] => .internal (.next s)
  | r :: rest =>
    match decode (.command r) with
    | .ok i => .run i { s with cmdIn := rest }
    | .error .operandShape => .internal (.refused .operandShape)
    | .error .badCommand => .internal (.next ({ s with cmdIn := rest }.raise .badCommand none))
    | .error .notAWireFormat => .internal (.next ({ s with cmdIn := rest }.raise .badCommand none))

/-- The next move: a restart of the process first (R293); else what OP says (R157, R191). In the two polling phases the
wire format of the phase runs, the byte cell on the byte in CL_CUR (R33). -/
def nextAction (s : State) : Action :=
  if s.restartIn then .internal (.next s.restart)
  else
    match s.op with
    | .idle => acceptCommand s
    | .xferNotify => .internal (notifyStep s)
    | .xferHeader => .run .header s
    | .xferData => .run (.byteCell s.clCur) s
    | .eeProbe => .internal (probeStep s)
    | .eeWrite => .internal (writeStep s)
    | .eeVerify => .internal (verifyStep s)

/-- `s` with the instruction of a table row placed where the next step takes its instruction from (log entry 22). A
command word goes to the front of the command port, with a block that is IDLE; a wire format is selected by OP, with a
budget for one polling iteration and, for a byte cell, its byte in CL_CUR. -/
def placeWord (s : State) (nbits w : Nat) : State :=
  match codeOfTableWord nbits w with
  | some (.command r) => { s with op := .idle, restartIn := false, cmdIn := r :: s.cmdIn }
  | some (.wire levels) =>
    match decode (.wire levels) with
    | .ok (.byteCell d) => { s with op := .xferData, restartIn := false, clTmo := max 1 s.clTmo, clCur := d }
    | .ok _ => { s with op := .xferHeader, restartIn := false, clTmo := max 1 s.clTmo }
    | .error _ => s
  | none => s

end Sys2Proof.Machine
end

