-- ==== Sys2Proof/Machine/Step.lean ====
section
/-! DEFINITION. One step of the machine (R17), and an instruction placed at its fetch. -/

namespace Sys2Proof.Machine

/-- One step of CORE: the next move, which is an instruction of the table or a step of the command in flight. -/
def step (s : State) : Host.Outcome State Fault Refusal :=
  match nextAction s with
  | .run i t => exec i t
  | .internal o => o

/-- The state in which the next step fetches and runs exactly the instruction whose table bits are `w`. -/
def State.withFetchWord (s : State) (nbits w : Nat) : State := placeWord s nbits w

end Sys2Proof.Machine
end

