-- ==== Sys2Proof/Machine/Frame.lean ====
section
/-! DEFINITION. The trace of the data line that a claim speaks of (R160), and the frame of R93 it is compared with. -/

namespace Sys2Proof.Machine

/-- HDR_EDGES (R8). -/
def hdrEdges : Nat := 37

/-- XFER_EDGES (R8). -/
def xferEdges : Nat := 4645

/-- FRAME(g), the level at global falling edge g, 1 ≤ g ≤ 4645, for slot `sel` of image `img` (R93). -/
def frameLevel (img : Memory) (sel : BitVec 3) (g : Nat) : Level :=
  if g ≤ 37 then headerLevel g
  else if (g - 38) % 9 = 8 then true
  else (img.read (512 * sel.toNat + (g - 38) / 9)).getLsbD (7 - (g - 38) % 9)

/-- The first `n` levels of the frame (R93). -/
def framePart (img : Memory) (sel : BitVec 3) (n : Nat) : List Level :=
  (List.range n).map fun i => frameLevel img sel (i + 1)

/-- TX of the transfer that started last, newest level first (R160). -/
def txOf : List Event → List Level
  | [] => []
  | .transferStart :: _ => []
  | .tx v :: rest => v :: txOf rest
  | _ :: rest => txOf rest

/-- TX: the levels written at the falling edges of the transfer that started last, in order (R160). -/
def State.tx (s : State) : List Level := (txOf s.trace).reverse

/-- How many falling edges of the frame the counters say were seen: CL_EDGE in the header phase or after its timeout,
37 + 9 × CL_BYTE + CL_BIT from data-phase entry on (R160 (b)). -/
def State.framePos (s : State) : Nat :=
  if s.clEdge.toNat < 37 then s.clEdge.toNat else 37 + 9 * s.clByte.toNat + s.clBit.toNat

/-- How many watchdog services a trace shows (R41). -/
def kickCount : List Event → Nat
  | [] => 0
  | .wdtKick :: rest => kickCount rest + 1
  | _ :: rest => kickCount rest

/-- How many clock samples a trace shows (R37). -/
def sampleCount : List Event → Nat
  | [] => 0
  | .clkSample _ :: rest => sampleCount rest + 1
  | _ :: rest => sampleCount rest

end Sys2Proof.Machine
end

