-- ==== Sys2Proof/Safety.lean ====
section
/-! DEFINITION. What holds in every reachable state: the invariants of R54 and the ranges of the registers, the trace of
a transfer in flight, the EEPROM content of a burn in flight; and the bound on a transfer's steps. -/

namespace Sys2Proof.Machine

/-- The state invariant: R54, the counter ranges of R27 to R35, R42, R255 and the canonical memories. -/
structure State.Inv (s : State) : Prop where
  cfg_wf : s.cfg.wf = true
  img_wf : Memory.wf imgBytes s.img = true
  ee_wf : Memory.wf s.cfg.eeCap s.ee = true
  /-- R54 (3): without an image no transfer and no burn is running. -/
  no_image : s.imgValid = false → s.op = .idle
  /-- R54 (1), R153: SDA is high except in the polling phases. -/
  sda_high : s.op.polling = false → s.sda = true
  /-- R54 (2). -/
  notify_low : s.notifyN = false ↔ s.op = .xferNotify
  /-- R40. -/
  irq_lock : s.irqLock = s.op.inTransfer
  /-- R42. -/
  bus_pin : s.busPin = s.cfg.busPins s.busSel
  /-- R255: DeviceNotPresent is visible only while the block waits. -/
  status_final : s.op ≠ .eeProbe → s.status ≠ .deviceNotPresent
  /-- R27. -/
  ncnt_le : s.clNcnt ≤ s.cfg.notifyIter
  /-- R28. -/
  tmo_le : s.clTmo ≤ max s.cfg.hdrTimeout s.cfg.dataTimeout
  /-- R30. -/
  edge_le : s.clEdge.toNat ≤ 37
  /-- R31. -/
  byte_le : s.clByte.toNat ≤ 512
  /-- R32. -/
  bit_le : s.clBit.toNat ≤ 8
  /-- R34. -/
  addr_le : s.eeAddr.toNat ≤ 4096
  /-- R35. -/
  mism_le : s.eeMism.toNat ≤ 2
  /-- R147: the edge that makes CL_EDGE 37 ends the header phase. -/
  header : s.op = .xferHeader → s.clEdge.toNat < 37 ∧ s.clTmo ≤ s.cfg.hdrTimeout
  /-- R54 (4). -/
  data : s.op = .xferData → s.clEdge.toNat = 37 ∧ s.clByte.toNat ≤ 511 ∧ s.clCur = s.fetchByte s.clByte.toNat ∧
    s.clTmo ≤ s.cfg.dataTimeout
  /-- R54 (5). -/
  chunk : s.op = .eeWrite ∨ s.op = .eeVerify → chunkDefined s.cfg s.eeAddr.toNat = true
  /-- R54 (6). -/
  verify : s.op = .eeVerify → s.eeMism.toNat ≤ 1

/-- R160 for a transfer in flight: in XFER_NOTIFY TX is empty, in the polling phases it is the part of the frame that the
counters say was sent. -/
structure State.TxInv (s : State) : Prop where
  notify : s.op = .xferNotify → s.tx = []
  header : s.op = .xferHeader → s.tx = framePart s.img s.sel s.clEdge.toNat
  data : s.op = .xferData → s.tx = framePart s.img s.sel (37 + 9 * s.clByte.toNat + s.clBit.toNat)

/-- R62 for a burn in flight: in EE_WRITE the bytes below EE_ADDR have been written, in EE_VERIFY all bytes below LIMIT
(EE being what a faithful device holds, R76). -/
structure State.BurnInv (s : State) : Prop where
  written : s.op = .eeWrite → ∀ a, a < s.eeAddr.toNat → s.ee.read a = s.img.read a
  verifying : s.op = .eeVerify → ∀ a, a < limit s.cfg → s.ee.read a = s.img.read a

/-- How many more polling iterations that sample the phases of a transfer can still take at most, from their budgets
(R161): per phase, or per edge with TMO_PER_EDGE. -/
def State.pollsLeft (s : State) : Nat :=
  match s.op with
  | .xferNotify =>
    if s.cfg.tmoPerEdge then 37 * s.cfg.hdrTimeout + 4608 * s.cfg.dataTimeout else s.cfg.hdrTimeout + s.cfg.dataTimeout
  | .xferHeader =>
    if s.cfg.tmoPerEdge then s.clTmo + (36 - s.clEdge.toNat) * s.cfg.hdrTimeout + 4608 * s.cfg.dataTimeout
    else s.clTmo + s.cfg.dataTimeout
  | .xferData =>
    if s.cfg.tmoPerEdge then s.clTmo + (4607 - (9 * s.clByte.toNat + s.clBit.toNat)) * s.cfg.dataTimeout else s.clTmo
  | .idle => 0
  | .eeProbe => 0
  | .eeWrite => 0
  | .eeVerify => 0

/-- How many more steps a transfer can take at most: the notify waits still to run and the release, the polling
iterations, one that aborts (R161). -/
def State.stepsLeft (s : State) : Nat :=
  (if s.op = .xferNotify then s.clNcnt + 1 else 0) + s.pollsLeft + 1

end Sys2Proof.Machine
end

