-- ==== Sys2Proof/Certificates/Slice0/Obligations.lean ====
section
/-! DEFINITION. The statements for the provers, in the order of OBLIGATIONS.json. -/

open Sys2Proof Sys2Proof.Machine

/-! Encodings -/

/-- R95 to R97, R91, R92: decoding the code of a well-formed instruction gives the instruction back. -/
def Obligations.DecodeEncodeAgree : Prop :=
  ∀ i : Instr, i.wf = true → decode (encode i) = .ok i

/-- R96, R91, R92: what the decoder accepts is well formed and has that code: a command word, with REPLACE_IMAGE's
operand, and the levels of a wire format stand for one instruction each. -/
def Obligations.DecodedCodeEncodesBack : Prop :=
  (∀ r i, decode (.command r) = .ok i →
    i.wf = true ∧ ∃ m, encode i = .command { cmd := r.cmd, imgIn := m } ∧ (opcField r.cmd = 4 → m = r.imgIn)) ∧
  ∀ l i, decode (.wire l) = .ok i → i.wf = true ∧ encode i = .wire l

/-- R98: an illegal word at the port of an idle block is refused with BadCommand and changes nothing else (the word is
taken from the port and the refusal is reported, log entry 13). -/
def Obligations.IllegalWordIsBadCommand : Prop :=
  ∀ (s : State) (r : Request) (rest : List Request),
    s.restartIn = false → s.op = .idle → s.cmdIn = r :: rest →
    (opcField r.cmd = 0 ∨ 5 ≤ (opcField r.cmd).toNat ∨
      ((opcField r.cmd = 2 ∨ opcField r.cmd = 3 ∨ opcField r.cmd = 4) ∧ argField r.cmd ≠ 0)) →
    step s = .next { s with
      cmdIn := rest, result := false, status := .badCommand, trace := .failure .badCommand none :: s.trace }

/-- R91, R92, R96: words and levels written out from the encoding tables decode to the instructions they stand for. -/
def Obligations.WordsOfTheTableDecode : Prop :=
  decode (.command { cmd := 0b00010000, imgIn := [] }) = .ok (.select 0) ∧
  decode (.command { cmd := 0b00011111, imgIn := [] }) = .ok (.select 15) ∧
  decode (.command { cmd := 0b00100000, imgIn := [] }) = .ok .burn ∧
  decode (.command { cmd := 0b00110000, imgIn := [] }) = .ok .toggleBus ∧
  decode (.command { cmd := 0b01000000, imgIn := [(4095, 0xFC)] }) = .ok (.replaceImage [(4095, 0xFC)]) ∧
  decode (.wire [true, false, true, false, false, true, false, true, true]) = .ok (.byteCell 0xA5) ∧
  decodeTableWord 40 0x1FDFEFF7FD = some .header

/-- R91: the header is low exactly at edges 8, 17, 26 and 36 of its 37, the same for every image and slot, and is the
number 0x1FDFEFF7FD with edge 1 as the most significant bit. -/
def Obligations.HeaderIsTheFixedPattern : Prop :=
  (∀ (img : Memory) (sel : BitVec 3), framePart img sel 37 = headerLevels) ∧
  levelsOfNat 37 0x1FDFEFF7FD = headerLevels ∧
  ∀ k : Fin 37, headerLevels[(k : Nat)]? = some (decide (k.val + 1 ∉ [8, 17, 26, 36]))

/-- R93: a byte cell of the frame carries its byte's bits 7 to 0 and then a high gap, for every byte of the slot. -/
def Obligations.FrameCellCarriesByte : Prop :=
  ∀ (img : Memory) (sel : BitVec 3) (i : Nat), i < 512 →
    (List.range 9).map (fun j => frameLevel img sel (38 + 9 * i + j)) = cellLevels (img.read (512 * sel.toNat + i))

/-! The fetch -/

/-- A step runs the decoded instruction: at the port of an idle block, in the two polling phases (log entry 10), and for
a word of any row of the table placed with `withFetchWord`, a command word (8 bits), a header (40) or a byte cell (16) (log
entry 22). Nothing is added around `exec` but the request taken from the port. -/
def Obligations.StepRunsDecodedInstruction : Prop :=
  (∀ (s : State) (r : Request) (rest : List Request) (i : Instr),
    s.restartIn = false → s.op = .idle → s.cmdIn = r :: rest → decode (.command r) = .ok i →
    step s = exec i { s with cmdIn := rest }) ∧
  (∀ s : State, s.restartIn = false → s.op = .xferHeader → step s = exec .header s) ∧
  (∀ s : State, s.restartIn = false → s.op = .xferData → step s = exec (.byteCell s.clCur) s) ∧
  (∀ (s : State) (w : Nat) (i : Instr), decodeTableWord 8 w = some i →
    step (s.withFetchWord 8 w) = exec i { s with op := .idle, restartIn := false }) ∧
  (∀ (s : State) (w : Nat), decodeTableWord 40 w = some .header →
    s.withFetchWord 40 w = { s with op := .xferHeader, restartIn := false, clTmo := max 1 s.clTmo } ∧
      step (s.withFetchWord 40 w) = exec .header (s.withFetchWord 40 w)) ∧
  ∀ (s : State) (w : Nat) (d : Byte), decodeTableWord 16 w = some (.byteCell d) →
    s.withFetchWord 16 w = { s with op := .xferData, restartIn := false, clTmo := max 1 s.clTmo, clCur := d } ∧
      step (s.withFetchWord 16 w) = exec (.byteCell d) (s.withFetchWord 16 w)

/-- R44, R144: a command has no move while another is in flight, a wire format none outside its phase. That the model
says so with a fault is its choice (log entries 9 and 10). -/
def Obligations.NoMoveOutsideItsPhase : Prop :=
  (∀ (s : State) (n : BitVec 4) (img : Memory), s.op ≠ .idle →
    exec (.select n) s = .fault .portBusy ∧ exec .burn s = .fault .portBusy ∧
    exec .toggleBus s = .fault .portBusy ∧ exec (.replaceImage img) s = .fault .portBusy) ∧
  (∀ s : State, s.op ≠ .xferHeader → exec .header s = .fault .phaseNotEnabled) ∧
  ∀ (s : State) (d : Byte), s.op ≠ .xferData → exec (.byteCell d) s = .fault .phaseNotEnabled

/-! The image -/

/-- R120: REPLACE_IMAGE writes all 4096 bytes, sets IMG_VALID, clears SEL, returns 1 with OK and changes nothing else. -/
def Obligations.ReplaceImageReplacesWholeImage : Prop :=
  ∀ (s : State) (img : Memory), s.op = .idle → Memory.wf imgBytes img = true →
    ∃ t, exec (.replaceImage img) s = .next t ∧ (∀ a, a < 4096 → t.img.read a = img.read a) ∧
      t = { s with img := t.img, imgValid := true, sel := 0, result := true, status := .ok }

/-- R121, the model's stop (log entry 12): an operand that is no 4096-byte value is not a REPLACE_IMAGE. -/
def Obligations.OtherOperandIsNoReplaceImage : Prop :=
  (∀ (s : State) (img : Memory), s.op = .idle → Memory.wf imgBytes img = false →
    exec (.replaceImage img) s = .refused .operandShape) ∧
  ∀ (s : State) (r : Request) (rest : List Request), s.restartIn = false → s.op = .idle → s.cmdIn = r :: rest →
    r.cmd = 0x40 → Memory.wf imgBytes r.imgIn = false → step s = .refused .operandShape

/-- R20, R74, R125: no step but REPLACE_IMAGE's (and a restart of the process) changes IMG or IMG_VALID, and SEL is
constant while a command is in flight. -/
def Obligations.OnlyReplaceImageWritesImage : Prop :=
  (∀ s t : State, s.restartIn = false → step s = .next t → s.op ≠ .idle →
    t.img = s.img ∧ t.imgValid = s.imgValid ∧ t.sel = s.sel) ∧
  ∀ s t : State, s.restartIn = false → step s = .next t → s.op = .idle →
    (t.img = s.img ∧ t.imgValid = s.imgValid) ∨
      ∃ r rest, s.cmdIn = r :: rest ∧ decode (.command r) = .ok (.replaceImage r.imgIn) ∧ t.img = r.imgIn ∧
        t.imgValid = true ∧ t.sel = 0

/-! SELECT and the transfer -/

/-- R252: SELECT with an index above 7 fails with InvalidIndex, whether or not an image is loaded; SEL and every pin keep
their value. -/
def Obligations.SelectInvalidIndex : Prop :=
  ∀ (s : State) (n : BitVec 4), s.op = .idle → 7 < n.toNat →
    exec (.select n) s = .next { s with
      result := false, status := .invalidIndex, trace := .failure .invalidIndex (some n.toNat) :: s.trace }

/-- R251: without an image SELECT with a valid index and BURN fail with NoImage; nothing but RESULT and STATUS changes. -/
def Obligations.NoImageFails : Prop :=
  ∀ (s : State) (n : BitVec 4), s.op = .idle → s.imgValid = false → n.toNat ≤ 7 →
    exec (.select n) s = .next { s with
      result := false, status := .noImage, trace := .failure .noImage none :: s.trace } ∧
    exec .burn s = .next { s with result := false, status := .noImage, trace := .failure .noImage none :: s.trace }

/-- R124, R141: with an image and a valid index SELECT takes the index and starts the transfer; the clock is not looked
at. The event `transferStart` in the trace is the model's own (log entry 14). -/
def Obligations.SelectStartsTransfer : Prop :=
  ∀ (s : State) (n : BitVec 4), s.op = .idle → s.imgValid = true → n.toNat ≤ 7 →
    exec (.select n) s = .next { s with
      sel := BitVec.ofNat 3 n.toNat, irqLock := true, sda := true, notifyN := false, clNcnt := s.cfg.notifyIter,
      op := .xferNotify, trace := .transferStart :: s.trace }

/-- R142, R143: a notify-wait iteration services the watchdog in every WDT_NOTIFY_PERIOD-th iteration, the first among
them, and counts down; when the count is 0 the notify line is released and the header phase is entered. -/
def Obligations.NotifyWaitAndRelease : Prop :=
  ∀ s : State, s.restartIn = false → s.op = .xferNotify →
    (0 < s.clNcnt → step s = .next { s with
      clNcnt := s.clNcnt - 1
      trace := if (s.cfg.notifyIter - s.clNcnt) % s.cfg.wdtNotifyPeriod = 0 then .wdtKick :: s.trace else s.trace }) ∧
    (s.clNcnt = 0 → step s = .next { s with
      notifyN := true, clEdge := 0, clPrev := true, clTmo := s.cfg.hdrTimeout, op := .xferHeader })

/-- R142, R143: the notify pulse takes exactly NOTIFY_ITER wait iterations and the release, whatever the clock does. -/
def Obligations.NotifyPulseLength : Prop :=
  ∀ s : State, s.restartIn = false → s.op = .xferNotify →
    (∀ k, k ≤ s.clNcnt → ∃ t, Host.Core.run Sys2Proof.core k s = .next t ∧ t.op = .xferNotify ∧
      t.clNcnt = s.clNcnt - k ∧ t.notifyN = s.notifyN) ∧
    ∃ t, Host.Core.run Sys2Proof.core (s.clNcnt + 1) s = .next t ∧ t.op = .xferHeader ∧ t.notifyN = true ∧
      t.clkIn = s.clkIn ∧ sampleCount t.trace = sampleCount s.trace

/-- R152: a polling iteration that finds the budget exhausted ends the transfer with TransferTimeout: no sample, no
watchdog service, the lines idle-high, the lock released, every other register as it was. -/
def Obligations.ExhaustedBudgetAborts : Prop :=
  ∀ (s : State) (d : Byte), s.clTmo = 0 →
    (s.op = .xferHeader → exec .header s = .next { s with
      sda := true, notifyN := true, irqLock := false, result := false, status := .transferTimeout,
      trace := .failure .transferTimeout none :: s.trace, op := .idle }) ∧
    (s.op = .xferData → exec (.byteCell d) s = .next { s with
      sda := true, notifyN := true, irqLock := false, result := false, status := .transferTimeout,
      trace := .failure .transferTimeout none :: s.trace, op := .idle })

/-- R144, R146: a polling iteration whose sample is not a falling edge uses up one of the budget, services the watchdog,
samples the clock, remembers the level and does nothing else (where the sample comes from is log entry 2). -/
def Obligations.PollWithoutEdge : Prop :=
  ∀ (s : State) (d : Byte), 0 < s.clTmo → ¬(s.clPrev = true ∧ s.clkLevel = false) →
    (s.op = .xferHeader → exec .header s = .next { s with
      clTmo := s.clTmo - 1, clPrev := s.clkLevel, clkIn := s.clkIn.tail,
      envIdx := if s.clkIn = [] then s.envIdx + 1 else s.envIdx,
      trace := .clkSample s.clkLevel :: .wdtKick :: s.trace }) ∧
    (s.op = .xferData → exec (.byteCell d) s = .next { s with
      clTmo := s.clTmo - 1, clPrev := s.clkLevel, clkIn := s.clkIn.tail,
      envIdx := if s.clkIn = [] then s.envIdx + 1 else s.envIdx,
      trace := .clkSample s.clkLevel :: .wdtKick :: s.trace })

/-- R147: a falling edge of the header before the 37th counts up and drives SDA, low exactly at 8, 17, 26 and 36
(where the sample comes from is log entry 2). -/
def Obligations.HeaderEdgeDrivesLevel : Prop :=
  ∀ s : State, s.op = .xferHeader → 0 < s.clTmo → s.clPrev = true → s.clkLevel = false → s.clEdge.toNat < 36 →
    exec .header s = .next { s with
      clTmo := if s.cfg.tmoPerEdge then s.cfg.hdrTimeout else s.clTmo - 1
      clPrev := false
      clkIn := s.clkIn.tail
      envIdx := if s.clkIn = [] then s.envIdx + 1 else s.envIdx
      clEdge := s.clEdge + 1
      sda := decide (s.clEdge.toNat + 1 ∉ [8, 17, 26, 36])
      trace := .tx (decide (s.clEdge.toNat + 1 ∉ [8, 17, 26, 36])) :: .clkSample false :: .wdtKick :: s.trace }

/-- R149: the 37th falling edge drives SDA high and enters the data phase with the first byte of the slot (where the
sample comes from is log entry 2). -/
def Obligations.LastHeaderEdgeEntersData : Prop :=
  ∀ s : State, s.op = .xferHeader → 0 < s.clTmo → s.clPrev = true → s.clkLevel = false → s.clEdge.toNat = 36 →
    exec .header s = .next { s with
      clTmo := s.cfg.dataTimeout
      clPrev := false
      clkIn := s.clkIn.tail
      envIdx := if s.clkIn = [] then s.envIdx + 1 else s.envIdx
      clEdge := 37
      sda := true
      trace := .tx true :: .clkSample false :: .wdtKick :: s.trace
      clByte := 0
      clBit := 0
      clCur := s.img.read (512 * s.sel.toNat)
      op := .xferData }

/-- R150: falling edges 1 to 8 of a byte cell drive bits 7 to 0 of the byte (where the sample comes from is log entry
2). -/
def Obligations.DataEdgeDrivesBit : Prop :=
  ∀ (s : State) (d : Byte), s.op = .xferData → 0 < s.clTmo → s.clPrev = true → s.clkLevel = false →
    s.clBit.toNat < 8 →
    exec (.byteCell d) s = .next { s with
      clTmo := if s.cfg.tmoPerEdge then s.cfg.dataTimeout else s.clTmo - 1
      clPrev := false
      clkIn := s.clkIn.tail
      envIdx := if s.clkIn = [] then s.envIdx + 1 else s.envIdx
      clBit := s.clBit + 1
      sda := d.getLsbD (7 - s.clBit.toNat)
      trace := .tx (d.getLsbD (7 - s.clBit.toNat)) :: .clkSample false :: .wdtKick :: s.trace }

/-- R151: the ninth falling edge of a byte before the last drives SDA high and fetches the next byte (where the sample
comes from is log entry 2). -/
def Obligations.GapEdgeFetchesNextByte : Prop :=
  ∀ (s : State) (d : Byte), s.op = .xferData → 0 < s.clTmo → s.clPrev = true → s.clkLevel = false →
    s.clBit.toNat = 8 → s.clByte.toNat < 511 →
    exec (.byteCell d) s = .next { s with
      clTmo := if s.cfg.tmoPerEdge then s.cfg.dataTimeout else s.clTmo - 1
      clPrev := false
      clkIn := s.clkIn.tail
      envIdx := if s.clkIn = [] then s.envIdx + 1 else s.envIdx
      clBit := 0
      clByte := s.clByte + 1
      clCur := s.img.read (512 * s.sel.toNat + (s.clByte.toNat + 1))
      sda := true
      trace := .tx true :: .clkSample false :: .wdtKick :: s.trace }

/-- R156: the ninth falling edge of byte 511 ends the transfer: SDA high, the lock released, RESULT 1, OK; no fetch
(where the sample comes from is log entry 2). -/
def Obligations.LastGapEdgeFinishes : Prop :=
  ∀ (s : State) (d : Byte), s.op = .xferData → 0 < s.clTmo → s.clPrev = true → s.clkLevel = false →
    s.clBit.toNat = 8 → s.clByte.toNat = 511 →
    exec (.byteCell d) s = .next { s with
      clTmo := if s.cfg.tmoPerEdge then s.cfg.dataTimeout else s.clTmo - 1
      clPrev := false
      clkIn := s.clkIn.tail
      envIdx := if s.clkIn = [] then s.envIdx + 1 else s.envIdx
      clBit := 0
      clByte := 512
      sda := true
      trace := .tx true :: .clkSample false :: .wdtKick :: s.trace
      irqLock := false
      op := .idle
      result := true
      status := .ok }

/-- R145: a polling iteration that takes a sample emits exactly one WDT_KICK, directly before the sample; one that finds
the budget exhausted takes no sample and emits none. -/
def Obligations.WatchdogServicedEveryPoll : Prop :=
  ∀ (s t : State), s.restartIn = false → s.op.polling = true → step s = .next t →
    (0 < s.clTmo → ∃ new, t.trace = new ++ .clkSample s.clkLevel :: .wdtKick :: s.trace ∧
      kickCount t.trace = kickCount s.trace + 1 ∧ sampleCount t.trace = sampleCount s.trace + 1) ∧
    (s.clTmo = 0 → kickCount t.trace = kickCount s.trace ∧ sampleCount t.trace = sampleCount s.trace)

/-- R153: outside the two polling phases the clock is not looked at: no sample is taken, the levels to come stay, no edge
is counted or answered and SDA stays high. -/
def Obligations.ClockIgnoredOutsidePolling : Prop :=
  ∀ s t : State, s.Inv → s.restartIn = false → s.op.polling = false → step s = .next t →
    t.clkIn = s.clkIn ∧ sampleCount t.trace = sampleCount s.trace ∧ t.sda = true ∧
    t.clByte = s.clByte ∧ t.clBit = s.clBit ∧ (t.clEdge = s.clEdge ∨ t.op = .xferHeader ∧ t.clEdge = 0) ∧
    (t.tx = s.tx ∨ t.op = .xferNotify ∧ t.tx = [])

/-- R266: the locked context is entered only by a SELECT that starts a transfer and left only by Finish or the timeout
abort (a restart of the process apart, log entry 15); the lock is on exactly in the three transfer phases. -/
def Obligations.LockedContextEntryAndExit : Prop :=
  ∀ s t : State, s.Inv → s.restartIn = false → step s = .next t →
    s.irqLock = s.op.inTransfer ∧ t.irqLock = t.op.inTransfer ∧
    (s.irqLock = false → t.irqLock = true → s.op = .idle ∧ t.op = .xferNotify ∧
      ∃ r rest n, s.cmdIn = r :: rest ∧ decode (.command r) = .ok (.select n)) ∧
    (s.irqLock = true → t.irqLock = false → t.op = .idle ∧
      ((s.clTmo = 0 ∧ t.status = .transferTimeout ∧ t.result = false) ∨
        (s.op = .xferData ∧ t.clByte.toNat = 512 ∧ t.status = .ok ∧ t.result = true)))

/-- R160: while a transfer is in flight the levels driven so far are exactly the part of the frame that the counters
say. -/
def Obligations.TransferTraceInvariant : Prop :=
  ∀ s t : State, s.Inv → s.TxInv → step s = .next t → t.TxInv

/-- R160 (a) and (b): a transfer that ends with OK has driven the whole frame of 4645 levels of the selected slot; one
that times out has driven a proper part of it, as long as the counters say. -/
def Obligations.EndedTransferDroveFrame : Prop :=
  ∀ s t : State, s.Inv → s.TxInv → s.restartIn = false → s.op.polling = true → step s = .next t → t.op = .idle →
    (t.status = .ok ∧ t.result = true ∧ t.tx = framePart t.img t.sel 4645) ∨
      (t.status = .transferTimeout ∧ t.result = false ∧ t.framePos < 4645 ∧ t.tx = framePart t.img t.sel t.framePos)

/-- R148 (b): if the clock shows no further falling edge while the budget lasts (it stays high, or, low at the last
sample, stays low for some samples and high for the others) the transfer ends with TransferTimeout once the budget is used
up, with the position and the image as they were. -/
def Obligations.StalledClockTimesOut : Prop :=
  ∀ (s : State) (low high : Nat) (rest : List Level), s.restartIn = false → s.op.polling = true →
    low + high = s.clTmo → low = 0 ∨ s.clPrev = false →
    s.clkIn = List.replicate low false ++ List.replicate high true ++ rest →
    ∃ t, Host.Core.run Sys2Proof.core (s.clTmo + 1) s = .next t ∧ t.op = .idle ∧ t.result = false ∧
      t.status = .transferTimeout ∧ t.irqLock = false ∧ t.sda = true ∧ t.notifyN = true ∧ t.clkIn = rest ∧
      t.clEdge = s.clEdge ∧ t.clByte = s.clByte ∧ t.clBit = s.clBit ∧ t.sel = s.sel ∧ t.img = s.img ∧
      t.imgValid = s.imgValid ∧ t.tx = s.tx

/-- R161, R148 (a): whatever the clock does, under both readings of the timeout, a transfer ends within the steps its
budgets leave. -/
def Obligations.EveryTransferEnds : Prop :=
  ∀ s : State, s.Inv → s.restartIn = false → s.op.inTransfer = true →
    ∃ k t, k ≤ s.stepsLeft ∧ Host.Core.run Sys2Proof.core k s = .next t ∧ t.op = .idle

/-- R140, R160, R161: with budgets of R10 and a clock that alternates high and low, SELECT n sends the whole frame of
slot n in 1 + (NOTIFY_ITER + 1) + 9290 steps and returns 1 with OK. -/
def Obligations.AlternatingClockSendsProgram : Prop :=
  ∀ (s : State) (r : Request) (rest : List Request) (n : BitVec 4) (later : List Level),
    s.restartIn = false → s.op = .idle → s.imgValid = true → s.cmdIn = r :: rest →
    decode (.command r) = .ok (.select n) → n.toNat ≤ 7 →
    (if s.cfg.tmoPerEdge then 2 ≤ s.cfg.hdrTimeout ∧ 2 ≤ s.cfg.dataTimeout
      else 74 ≤ s.cfg.hdrTimeout ∧ 9216 ≤ s.cfg.dataTimeout) →
    s.clkIn = (List.replicate 4645 [true, false]).flatten ++ later →
    ∃ t, Host.Core.run Sys2Proof.core (1 + (s.cfg.notifyIter + 1) + 9290) s = .next t ∧
      t.op = .idle ∧ t.result = true ∧ t.status = .ok ∧ t.sel.toNat = n.toNat ∧ t.img = s.img ∧
      t.tx = framePart s.img (BitVec.ofNat 3 n.toNat) 4645 ∧ t.clEdge.toNat = 37 ∧ t.clByte.toNat = 512 ∧
      t.clBit.toNat = 0 ∧ t.sda = true ∧ t.notifyN = true ∧ t.irqLock = false ∧ t.clkIn = later ∧ t.cmdIn = rest

/-! BURN -/

/-- R180: with an image BURN is accepted: the probe phase begins and nothing else changes. -/
def Obligations.BurnStartsProbing : Prop :=
  ∀ s : State, s.op = .idle → s.imgValid = true → exec .burn s = .next { s with op := .eeProbe }

/-- R182: a probe step: a present device starts the write phase at address 0; an absent one shows DeviceNotPresent and
leaves the block probing (where the answer comes from is log entry 3). -/
def Obligations.ProbeDecidesWait : Prop :=
  ∀ s : State, s.restartIn = false → s.op = .eeProbe →
    (s.probeAnswer = true → step s = .next { s with
      probeIn := s.probeIn.tail, envIdx := if s.probeIn = [] then s.envIdx + 1 else s.envIdx,
      trace := .eeProbe true :: s.trace, status := .ok, eeAddr := 0, op := .eeWrite }) ∧
    (s.probeAnswer = false → step s = .next { s with
      probeIn := s.probeIn.tail, envIdx := if s.probeIn = [] then s.envIdx + 1 else s.envIdx,
      trace := .eeProbe false :: s.trace, status := .deviceNotPresent })

/-- R183: the wait has no bound: while every probe answers absent the block stays in EE_PROBE, for any number of steps,
and only a probe that answers present leaves it (the probe answers to come are log entry 3). -/
def Obligations.AbsentDeviceWaitsForever : Prop :=
  (∀ (k : Nat) (s : State) (later : List Bool), s.restartIn = false → s.op = .eeProbe →
    s.probeIn = List.replicate k false ++ later →
    ∃ t, Host.Core.run Sys2Proof.core k s = .next t ∧ t.op = .eeProbe ∧ t.probeIn = later ∧ t.cmdIn = s.cmdIn ∧
      t.ee = s.ee ∧ (0 < k → t.status = .deviceNotPresent)) ∧
  ∀ s t : State, s.restartIn = false → s.op = .eeProbe → step s = .next t →
    (t.op = .eeWrite ↔ s.probeAnswer = true) ∧ (t.op = .eeProbe ↔ s.probeAnswer = false)

/-- R184, R192: a chunk is within the page, the image and the capacity, and the address after it is again one of the chunk
list or LIMIT. -/
def Obligations.ChunksCoverUpToLimit : Prop :=
  ∀ (p : Params) (a : Nat), p.wf = true → chunkDefined p a = true →
    1 ≤ chunkLen p a ∧ chunkLen p a ≤ p.eePage ∧ a + chunkLen p a ≤ limit p ∧ limit p ≤ 4096 ∧ limit p ≤ p.eeCap ∧
    (a + chunkLen p a = limit p ∨ chunkLen p a = p.eePage ∧ chunkDefined p (a + chunkLen p a) = true)

/-- R186: a write step stores the image bytes of the chunk at EE_ADDR and no other byte, and advances; after the last
chunk the verify phase begins with its counters cleared. That EE reads as written is the faithful device of R76 (b), as log
entry 4 holds it. -/
def Obligations.WriteStepStoresChunk : Prop :=
  ∀ s : State, s.restartIn = false → s.op = .eeWrite → chunkDefined s.cfg s.eeAddr.toNat = true →
    ∃ t, step s = .next t ∧
      (∀ x, t.ee.read x = if s.eeAddr.toNat ≤ x ∧ x < s.eeAddr.toNat + chunkLen s.cfg s.eeAddr.toNat then s.img.read x
        else s.ee.read x) ∧
      t.trace = .eeWrite s.eeAddr.toNat
        ((List.range (chunkLen s.cfg s.eeAddr.toNat)).map fun i => s.img.read (s.eeAddr.toNat + i)) :: s.trace ∧
      t = (if s.eeAddr.toNat + chunkLen s.cfg s.eeAddr.toNat = limit s.cfg then
          { s with ee := t.ee, trace := t.trace, eeAddr := 0, eeMism := 0, eeMaddr := 0, op := .eeVerify }
        else
          { s with
            ee := t.ee, trace := t.trace
            eeAddr := BitVec.ofNat 13 (s.eeAddr.toNat + chunkLen s.cfg s.eeAddr.toNat) })

/-- R187, R188: a verify step on a chunk with which the count of mismatching bytes stays at most 1: the mismatch, if any,
is counted, recorded and reported, and the verification goes on or, at LIMIT, ends with RESULT 1 and OK (where the bytes
read back come from is log entry 4). -/
def Obligations.VerifyToleratesOneMismatch : Prop :=
  ∀ s : State, s.restartIn = false → s.op = .eeVerify → chunkDefined s.cfg s.eeAddr.toNat = true →
    ∀ bad : List Nat,
      bad = ((List.range (chunkLen s.cfg s.eeAddr.toNat)).filter fun i =>
        decide (s.ee.read (s.eeAddr.toNat + i) ^^^ s.readError i ≠ s.img.read (s.eeAddr.toNat + i))) →
      s.eeMism.toNat + bad.length ≤ 1 →
      ∃ t, step s = .next t ∧ t.eeMism.toNat = s.eeMism.toNat + bad.length ∧
        (bad = [] → t.eeMaddr = s.eeMaddr) ∧ (∀ i ∈ bad, t.eeMaddr.toNat = s.eeAddr.toNat + i) ∧
        t.trace = bad.map (fun i => .firstMismatch (s.eeAddr.toNat + i) (s.img.read (s.eeAddr.toNat + i))
            (s.ee.read (s.eeAddr.toNat + i) ^^^ s.readError i)) ++
          .eeRead s.eeAddr.toNat (s.readAnswer s.eeAddr.toNat (chunkLen s.cfg s.eeAddr.toNat)) :: s.trace ∧
        t = { s with
          eeMism := t.eeMism
          eeMaddr := t.eeMaddr
          trace := t.trace
          readErrIn := s.readErrIn.tail
          envIdx := if s.readErrIn = [] then s.envIdx + 1 else s.envIdx
          eeAddr := BitVec.ofNat 13 (s.eeAddr.toNat + chunkLen s.cfg s.eeAddr.toNat)
          op := if s.eeAddr.toNat + chunkLen s.cfg s.eeAddr.toNat = limit s.cfg then .idle else .eeVerify
          result :=
            if s.eeAddr.toNat + chunkLen s.cfg s.eeAddr.toNat = limit s.cfg then true else s.result
          status :=
            if s.eeAddr.toNat + chunkLen s.cfg s.eeAddr.toNat = limit s.cfg then .ok else s.status }

/-- R187, R254: a verify step on a chunk in which the second mismatching byte is found ends the burn with VerifyMismatch
at that byte: EE_MISM is 2, EE_ADDR stays at the chunk, EE_MADDR is the first mismatching byte's address (where the
bytes read back come from is log entry 4). -/
def Obligations.VerifyAbortsOnSecondMismatch : Prop :=
  ∀ s : State, s.restartIn = false → s.op = .eeVerify → chunkDefined s.cfg s.eeAddr.toNat = true →
    s.eeMism.toNat ≤ 1 →
    ∀ bad : List Nat,
      bad = ((List.range (chunkLen s.cfg s.eeAddr.toNat)).filter fun i =>
        decide (s.ee.read (s.eeAddr.toNat + i) ^^^ s.readError i ≠ s.img.read (s.eeAddr.toNat + i))) →
      2 ≤ s.eeMism.toNat + bad.length →
      ∃ t j, step s = .next t ∧ bad[1 - s.eeMism.toNat]? = some j ∧ t.eeMism = 2 ∧
        (s.eeMism = 1 → t.eeMaddr = s.eeMaddr) ∧
        (s.eeMism = 0 → ∃ i, bad[0]? = some i ∧ t.eeMaddr.toNat = s.eeAddr.toNat + i) ∧
        t.trace.head? = some (.failure .verifyMismatch (some (s.eeAddr.toNat + j))) ∧
        t = { s with
          eeMism := t.eeMism
          eeMaddr := t.eeMaddr
          trace := t.trace
          readErrIn := s.readErrIn.tail
          envIdx := if s.readErrIn = [] then s.envIdx + 1 else s.envIdx
          op := .idle
          result := false
          status := .verifyMismatch }

/-- R188: the outcome of a verification as a function: with at most one wrong address in [0, LIMIT) it ends with RESULT 1
after all page reads; else it ends with VerifyMismatch at the second wrong address, after the read of its page and no
further one. `errs` holds the wrong bits of each page read: how a read-back is written is log entry 4. -/
def Obligations.VerifyOutcome : Prop :=
  ∀ (s : State) (errs rest : List (List Byte)), s.cfg.wf = true → s.restartIn = false → s.op = .eeVerify →
    s.eeAddr = 0 → s.eeMism = 0 → errs.length = chunkCount s.cfg → s.readErrIn = errs ++ rest →
    ∀ wrong : List Nat,
      wrong = ((List.range (limit s.cfg)).filter fun a =>
        decide (s.ee.read a ^^^ (errs.getD (a / s.cfg.eePage) []).getD (a % s.cfg.eePage) 0 ≠ s.img.read a)) →
      (wrong.length ≤ 1 → ∃ t, Host.Core.run Sys2Proof.core (chunkCount s.cfg) s = .next t ∧ t.op = .idle ∧
        t.result = true ∧ t.status = .ok ∧ t.eeMism.toNat = wrong.length ∧ ∀ a ∈ wrong, t.eeMaddr.toNat = a) ∧
      (2 ≤ wrong.length → ∃ t a₁ a₂, wrong[0]? = some a₁ ∧ wrong[1]? = some a₂ ∧
        Host.Core.run Sys2Proof.core (a₂ / s.cfg.eePage + 1) s = .next t ∧ t.op = .idle ∧ t.result = false ∧
        t.status = .verifyMismatch ∧ t.eeMism = 2 ∧ t.eeMaddr.toNat = a₁ ∧
        t.trace.head? = some (.failure .verifyMismatch (some a₂)))

/-- R180, R207: no step of a burn touches IMG, IMG_VALID, SEL, BUSSEL, a ChipLink register or pin, or the lock, and none
services the watchdog or samples the clock. -/
def Obligations.BurnLeavesChipLinkAlone : Prop :=
  ∀ s t : State, s.restartIn = false → s.op = .eeProbe ∨ s.op = .eeWrite ∨ s.op = .eeVerify → step s = .next t →
    t.img = s.img ∧ t.imgValid = s.imgValid ∧ t.sel = s.sel ∧ t.busSel = s.busSel ∧ t.busPin = s.busPin ∧
    t.clNcnt = s.clNcnt ∧ t.clTmo = s.clTmo ∧ t.clPrev = s.clPrev ∧ t.clEdge = s.clEdge ∧ t.clByte = s.clByte ∧
    t.clBit = s.clBit ∧ t.clCur = s.clCur ∧ t.sda = s.sda ∧ t.notifyN = s.notifyN ∧ t.irqLock = s.irqLock ∧
    t.clkIn = s.clkIn ∧ t.cmdIn = s.cmdIn ∧ kickCount t.trace = kickCount s.trace ∧
    sampleCount t.trace = sampleCount s.trace

/-- R207: a burn does not read the bus select: in a state that differs in BUSSEL and BUS_PIN alone every step does the
same under the same device answers, which log entry 3 takes not to depend on the bus select (R207 leaves that tie to the
board). -/
def Obligations.BurnIgnoresBusSelect : Prop :=
  ∀ (s t : State) (b : BusSel) (p : BitVec 2), s.restartIn = false →
    (s.op = .eeProbe ∨ s.op = .eeWrite ∨ s.op = .eeVerify → step s = .next t →
      step { s with busSel := b, busPin := p } = .next { t with busSel := b, busPin := p }) ∧
    (exec .burn s = .next t → exec .burn { s with busSel := b, busPin := p } = .next { t with busSel := b, busPin := p })

/-- R94, R65: every page write and page read a step issues is of a chunk: at a multiple of EE_PAGE, of 1 to EE_PAGE bytes,
ending at or below LIMIT. -/
def Obligations.EepromTransactionShapes : Prop :=
  ∀ s t : State, s.Inv → step s = .next t →
    ∃ new, t.trace = new ++ s.trace ∧
      (∀ a v, .eeWrite a v ∈ new → a % s.cfg.eePage = 0 ∧ 1 ≤ v.length ∧ v.length ≤ s.cfg.eePage ∧
        a + v.length ≤ limit s.cfg) ∧
      (∀ a v, .eeRead a v ∈ new → a % s.cfg.eePage = 0 ∧ 1 ≤ v.length ∧ v.length ≤ s.cfg.eePage ∧
        a + v.length ≤ limit s.cfg)

/-- R69: EE addresses from LIMIT up are never touched, and none is outside the write phase of a burn. EE is the content of
the faithful device of R76 (log entry 4). -/
def Obligations.EepromWrittenOnlyBelowLimit : Prop :=
  ∀ s t : State, s.Inv → step s = .next t →
    (∀ a, limit s.cfg ≤ a → t.ee.read a = s.ee.read a) ∧ (s.op ≠ .eeWrite → t.ee = s.ee)

/-- R62: what has been written of a burn in flight is the image, byte for byte at the same address. -/
def Obligations.BurnContentInvariant : Prop :=
  ∀ s t : State, s.Inv → s.BurnInv → step s = .next t → t.BurnInv

/-- R194: with a device that answers present after k probes and reads back without error, a BURN of a loaded image ends
after k + 1 probes and two passes over the chunks with RESULT 1, no mismatch, and the image in EE below LIMIT, EE above
it unchanged. How the model writes a faithful device is log entries 3 and 4. -/
def Obligations.FaithfulBurnStoresImage : Prop :=
  ∀ (s : State) (r : Request) (rest : List Request) (k : Nat) (probes : List Bool) (reads : List (List Byte)),
    s.cfg.wf = true → s.restartIn = false → s.op = .idle → s.imgValid = true → s.cmdIn = r :: rest →
    decode (.command r) = .ok .burn → s.probeIn = List.replicate k false ++ true :: probes →
    s.readErrIn = List.replicate (chunkCount s.cfg) [] ++ reads →
    ∃ t, Host.Core.run Sys2Proof.core (2 + k + 2 * chunkCount s.cfg) s = .next t ∧
      t.op = .idle ∧ t.result = true ∧ t.status = .ok ∧ t.eeMism = 0 ∧ t.img = s.img ∧ t.cmdIn = rest ∧
      (∀ a, a < limit s.cfg → t.ee.read a = s.img.read a) ∧ ∀ a, limit s.cfg ≤ a → t.ee.read a = s.ee.read a

/-! TOGGLE_BUS -/

/-- R205: TOGGLE_BUS goes to the other bus state, its pins with it, returns 1 exactly when now ONBOARD, always with OK, and
changes nothing else; it needs no image. -/
def Obligations.ToggleBusSwitches : Prop :=
  ∀ s : State, s.op = .idle →
    (s.busSel = .onboard → exec .toggleBus s = .next { s with
      busSel := .external, busPin := s.cfg.busPins .external, result := false, status := .ok }) ∧
    (s.busSel = .external → exec .toggleBus s = .next { s with
      busSel := .onboard, busPin := s.cfg.busPins .onboard, result := true, status := .ok })

/-- R206: SetBus sets the state and both pins, and is idempotent. -/
def Obligations.SetBusIsIdempotent : Prop :=
  ∀ (s : State) (b : BusSel),
    s.setBus b = { s with busSel := b, busPin := s.cfg.busPins b } ∧ (s.setBus b).setBus b = s.setBus b

/-! Failures -/

/-- R262: the abort actions every failure takes. -/
def Obligations.RaiseTakesAbortActions : Prop :=
  ∀ (s : State) (st : Status) (info : Option Nat),
    (s.op = .xferNotify ∨ s.op = .xferHeader ∨ s.op = .xferData → s.raise st info = { s with
      sda := true, notifyN := true, irqLock := false, result := false, status := st,
      trace := .failure st info :: s.trace, op := .idle }) ∧
    (s.op = .idle ∨ s.op = .eeProbe ∨ s.op = .eeWrite ∨ s.op = .eeVerify → s.raise st info = { s with
      result := false, status := st, trace := .failure st info :: s.trace, op := .idle })

/-- R13: the block has no trap: from every state that meets the invariant there is a next state, but for an operand at the
port that is no 4096-byte value, which the host never presents (R121). -/
def Obligations.NoTrapFromInvariant : Prop :=
  ∀ s : State, s.Inv →
    (∃ t, step s = .next t) ∨
      (step s = .refused .operandShape ∧ s.op = .idle ∧ s.restartIn = false ∧
        ∃ r rest, s.cmdIn = r :: rest ∧ r.cmd = 0x40 ∧ Memory.wf imgBytes r.imgIn = false)

/-! Reset and the state invariant -/

/-- R52: the state after reset. -/
def Obligations.ResetValues : Prop :=
  let s := State.reset
  s.imgValid = false ∧ s.sel = 0 ∧ s.busSel = .onboard ∧ s.busPin = s.cfg.busPins .onboard ∧ s.op = .idle ∧
    s.result = false ∧ s.status = .ok ∧ s.sda = true ∧ s.notifyN = true ∧ s.irqLock = false ∧ s.clNcnt = 0 ∧
    s.clTmo = 0 ∧ s.clEdge = 0 ∧ s.clByte = 0 ∧ s.clBit = 0 ∧ s.clCur = 0 ∧ s.clPrev = true ∧ s.eeAddr = 0 ∧
    s.eeMism = 0 ∧ s.eeMaddr = 0

/-- R54: the state after reset meets the invariants, whatever the parameters of R9 are. -/
def Obligations.ResetMeetsInvariant : Prop :=
  State.reset.Inv ∧ State.reset.TxInv ∧ State.reset.BurnInv ∧ ∀ p : Params, p.wf = true → (State.resetWith p).Inv

/-- R54: every step keeps the state invariant. -/
def Obligations.StateInvariantKept : Prop :=
  ∀ s t : State, s.Inv → step s = .next t → t.Inv

/-- R292, R293, R296: a restart of the process puts the block in the reset state; the EEPROM and the host's "last used"
path keep what they hold and nothing is sent to the chip. The host begins with the automatic load of the last-used file,
where there is one, and only its success presents a REPLACE_IMAGE (log entry 23). What else goes on through a restart is
log entry 15. -/
def Obligations.RestartKeepsEeprom : Prop :=
  ∀ s : State, s.restartIn = true →
    ∃ first : List Request,
      step s = .next { State.resetWith s.cfg with
        ee := s.ee
        host := { s.host with loads := s.host.loads + (if s.host.lastUsed = none then 0 else 1) }
        cmdIn := first ++ s.cmdIn, clkIn := s.clkIn, probeIn := s.probeIn, readErrIn := s.readErrIn
        envIdx := s.envIdx, trace := s.trace } ∧
      (s.host.lastUsed = none → first = []) ∧
      ∀ (path : Path) (rep : LoadReport), s.host.lastUsed = some path →
        rep = loadFile s.host.params s.host.loads true (fileAt s.host.files path) →
        (rep.result ≠ .success → first = []) ∧
        (rep.result = .success → ∃ m, rep.staged = some m ∧ first = [{ cmd := 0x40, imgIn := m }] ∧
          decode (.command { cmd := 0x40, imgIn := m }) = .ok (.replaceImage m))

/-- R295: no step changes a parameter. -/
def Obligations.ParametersNeverChange : Prop :=
  ∀ s t : State, step s = .next t → t.cfg = s.cfg

/-! The host's HexLoader -/

/-- R222, R223, R230, R235 (the host's loader, log entry 19): no file at the path is file-not-found; a size that is
neither accepted one is malformed-file, whatever the bytes are; no file succeeds without a line whose own type field reads
1, whatever else its lines hold, a line whose fields cannot be read among them; and a file of an accepted size whose every
line is empty or a good data record, so that its physical end is reached without an end-of-file record, is
malformed-file. -/
def Obligations.LoaderRejectsFiles : Prop :=
  ∀ (h : HexParams) (load : Nat) (first : Bool) (bytes : List Byte),
    loadFile h load first none = { result := .fileNotFound, staged := none, persistPath := false } ∧
    (bytes.length ≠ h.sizeCrlf → bytes.length ≠ h.sizeLf →
      loadFile h load first (some bytes) = { result := .malformedFile, staged := none, persistPath := false }) ∧
    ((loadFile h load first (some bytes)).result = .success →
      ∃ cs, 58 :: cs ∈ splitLines (detectEol bytes) bytes ∧ pairAt cs 3 = some 1 ∧
        ∃ k b, processLine h load k b (58 :: cs) = .eof) ∧
    ((∀ l ∈ splitLines (detectEol bytes) bytes,
        l = [] ∨ ∃ cs r, l = 58 :: cs ∧ decodeRecord cs = some r ∧ r.kind = 0 ∧ r.sum = 0) →
      loadFile h load first (some bytes) = { result := .malformedFile, staged := none, persistPath := false })

/-- R102, R221, R232, R234: a loadFirmware that fails issues no command; a success issues REPLACE_IMAGE with the 4096
bytes of the staging buffer, behind what the host already presents, and persists the path as "last used". That every
successful loadFirmware persists its path, also the first one after a start without an automatic load, is log entry 23.
Nothing else changes but the count of loads, which is the model's (log entry 19). -/
def Obligations.OnlySuccessIssuesReplaceImage : Prop :=
  ∀ (s : State) (path : Path) (rep : LoadReport),
    rep = loadFile s.host.params s.host.loads false (fileAt s.host.files path) →
    (rep.result ≠ .success →
      s.loadFirmware path = (rep.result, { s with host := { s.host with loads := s.host.loads + 1 } })) ∧
    (rep.result = .success → ∃ m, rep.staged = some m ∧
      decode (.command { cmd := 0x40, imgIn := m }) = .ok (.replaceImage m) ∧
      s.loadFirmware path = (.success, { s with
        cmdIn := s.cmdIn ++ [{ cmd := 0x40, imgIn := m }]
        host := { s.host with lastUsed := some path, loads := s.host.loads + 1 } }))

/-- R225: the fields of a line are read back from the line of any record a line can carry. That characters after the
checksum field are not looked at is the model's (log entry 19). -/
def Obligations.RecordLineDecodes : Prop :=
  ∀ (r : HexRecord) (tail : List Byte), r.wf = true → decodeRecord (renderBytes r.bytes ++ tail) = some r

/-- R225 to R229, R231: a line that does not start with the marker is malformed-file; a line whose type field reads
neither 0 nor 1 is malformed-file, whatever its other fields and its checksum are and whether or not they can be read (that
an unreadable type field is one of these is log entry 19); a data record, wherever its bytes go, whose sum is not 0 is
checksum-error, one whose sum is 0 is placed; an end-of-file record ends the data, its checksum tested only where the
host's parameter says so. The order of the fields and the parameter are log entry 19. -/
def Obligations.LineChecksInOrder : Prop :=
  (∀ (h : HexParams) (load k : Nat) (b : Staging) (c : Byte) (cs : List Byte), c ≠ 58 →
    processLine h load k b (c :: cs) = .failed .malformedFile) ∧
  (∀ (h : HexParams) (load k : Nat) (b : Staging) (cs : List Byte), pairAt cs 3 ≠ some 0 → pairAt cs 3 ≠ some 1 →
    processLine h load k b (58 :: cs) = .failed .malformedFile) ∧
  ∀ (h : HexParams) (load k : Nat) (b : Staging) (r : HexRecord), r.wf = true →
    (r.kind ≠ 0 → r.kind ≠ 1 → processLine h load k b r.line = .failed .malformedFile) ∧
    (r.kind = 0 → r.sum ≠ 0 → processLine h load k b r.line = .failed .checksumError) ∧
    (r.kind = 0 → r.sum = 0 → processLine h load k b r.line = .placed (place b r.addr r.payload)) ∧
    (r.kind = 1 → h.checkEofSum = true → r.sum ≠ 0 → processLine h load k b r.line = .failed .checksumError) ∧
    (r.kind = 1 → h.checkEofSum = false ∨ r.sum = 0 → processLine h load k b r.line = .eof)

/-- R235: for every line-ending style, a file of good data records that together carry a 4096-byte buffer, ended by the
end-of-file record and of an accepted size, loads that buffer exactly. -/
def Obligations.LoadRoundTrip : Prop :=
  ∀ (h : HexParams) (load : Nat) (first : Bool) (e : Eol) (buf : Nat → Byte) (rs : List HexRecord),
    (∀ r ∈ rs, r.wf = true ∧ r.kind = 0 ∧ r.sum = 0 ∧ r.addr + r.payload.length ≤ 4096 ∧
      ∀ i, i < r.payload.length → r.payload[i]? = some (buf (r.addr + i))) →
    (∀ a, a < 4096 → ∃ r ∈ rs, r.addr ≤ a ∧ a < r.addr + r.payload.length) →
    ((renderFile e (rs ++ [eofRecord])).length = h.sizeCrlf ∨ (renderFile e (rs ++ [eofRecord])).length = h.sizeLf) →
    ∃ m, loadFile h load first (some (renderFile e (rs ++ [eofRecord]))) =
        { result := .success, staged := some m, persistPath := !first } ∧
      Memory.wf imgBytes m = true ∧ ∀ a, a < 4096 → m.read a = buf a

/-! The codes the host reads -/

/-- R23, R26, R48, R233, R250: the numbers of OP, STATUS, BUSSEL and LoadResult, and STATUS ++ RESULT. -/
def Obligations.CodesOfTheTables : Prop :=
  ([Op.idle, .xferNotify, .xferHeader, .xferData, .eeProbe, .eeWrite, .eeVerify].map fun o => o.code.toNat) =
    [0, 1, 2, 3, 4, 5, 6] ∧
  ([Status.ok, .noImage, .invalidIndex, .transferTimeout, .verifyMismatch, .deviceNotPresent, .badCommand].map
    fun c => c.code.toNat) = [0, 1, 2, 3, 4, 5, 6] ∧
  BusSel.onboard.code.toNat = 0 ∧ BusSel.external.code.toNat = 1 ∧
  ([LoadResult.success, .fileNotFound, .malformedFile, .checksumError].map LoadResult.code) = [0, 1, 2, 3] ∧
  ∀ s : State, (statusWord s).toNat = 2 * s.status.code.toNat + (if s.result then 1 else 0)
end

