-- ==== Sys2Proof/Laws/Memory.lean ====
section
/-! SUPPORT. The laws of byte memories: a write reads back, leaves every other byte alone and keeps the canonical form;
equal memories are equal data. -/

namespace Sys2Proof

@[simp] theorem Memory.read_nil (a : Nat) : Memory.read [] a = Memory.filler := rfl

theorem Memory.read_cons (k : Nat) (v : Byte) (m : Memory) (a : Nat) :
    Memory.read ((k, v) :: m) a = if k = a then v else Memory.read m a := rfl

@[simp] theorem Memory.readBytes_length (m : Memory) (a n : Nat) : (m.readBytes a n).length = n := by
  simp [Memory.readBytes]

theorem Memory.readBytes_getElem (m : Memory) (a n i : Nat) (h : i < (m.readBytes a n).length) :
    (m.readBytes a n)[i] = m.read (a + i) := by
  simp [Memory.readBytes]

/-- A part of a list of cells none of which is at `a` does not matter for reading `a`. -/
theorem Memory.read_append_of_absent {m : Memory} {a : Nat} (h : ∀ c ∈ m, c.1 ≠ a) (m' : Memory) :
    Memory.read (m ++ m') a = Memory.read m' a := by
  induction m with
  | nil => rfl
  | cons c m ih =>
    obtain ⟨k, v⟩ := c
    have hk : k ≠ a := h (k, v) (by simp)
    simp only [List.cons_append, Memory.read_cons, if_neg hk]
    exact ih fun c hc => h c (by simp [hc])

/-- A kept part that keeps every cell at `a` reads the same at `a`, whatever follows when nothing more is at `a`. -/
theorem Memory.read_filter_append {m : Memory} {a : Nat} {p : Host.Cell → Bool} (hp : ∀ v, p (a, v) = true)
    {m' : Memory} (h' : Memory.read m' a = Memory.filler) :
    Memory.read (m.filter p ++ m') a = Memory.read m a := by
  induction m with
  | nil => simpa using h'
  | cons c m ih =>
    obtain ⟨k, v⟩ := c
    by_cases hk : k = a
    · subst hk
      simp [hp, Memory.read_cons]
    · by_cases hpc : p (k, v) = true
      · simp [hpc, Memory.read_cons, hk, ih]
      · simp [hpc, Memory.read_cons, hk, ih]

theorem Memory.read_of_absent {m : Memory} {a : Nat} (h : ∀ c ∈ m, c.1 ≠ a) : Memory.read m a = Memory.filler := by
  have := Memory.read_append_of_absent h []
  simpa using this

theorem Memory.cells_range {a : Nat} {bs : List Byte} {c : Host.Cell} (h : c ∈ Memory.cells a bs) :
    a ≤ c.1 ∧ c.1 < a + bs.length := by
  induction bs generalizing a with
  | nil => simp [Memory.cells] at h
  | cons b bs ih =>
    rw [Memory.cells] at h
    split at h
    · have := ih h
      simp only [List.length_cons]
      omega
    · rcases List.mem_cons.mp h with rfl | h
      · simp
      · have := ih h
        simp only [List.length_cons]
        omega

theorem Memory.read_cells_append (a x : Nat) (bs : List Byte) (m : Memory) (hx : a ≤ x) (hx' : x < a + bs.length)
    (hm : Memory.read m x = Memory.filler) :
    Memory.read (Memory.cells a bs ++ m) x = bs.getD (x - a) Memory.filler := by
  induction bs generalizing a with
  | nil => simp only [List.length_nil] at hx'; omega
  | cons b bs ih =>
    simp only [List.length_cons] at hx'
    rw [Memory.cells]
    by_cases hxa : x = a
    · subst hxa
      split
      · next hb =>
        rw [Memory.read_append_of_absent (fun c hc => by have := Memory.cells_range hc; omega)]
        simp [hm, hb]
      · simp [Memory.read_cons]
    · have hs : x - a = (x - (a + 1)) + 1 := by omega
      split
      · rw [ih (a + 1) (by omega) (by omega), hs]
        rfl
      · rw [List.cons_append, Memory.read_cons, if_neg (by omega), ih (a + 1) (by omega) (by omega), hs]
        rfl

/-- Reading after a write: inside the written range the written byte, outside it what was there before. -/
theorem Memory.read_writeBytes (m : Memory) (a x : Nat) (bs : List Byte) :
    (m.writeBytes a bs).read x = if a ≤ x ∧ x < a + bs.length then bs.getD (x - a) Memory.filler else m.read x := by
  unfold Memory.writeBytes
  split
  · next h =>
    rw [Memory.read_append_of_absent, Memory.read_cells_append a x bs _ h.1 h.2]
    · apply Memory.read_of_absent
      intro c hc
      simp only [List.mem_filter, decide_eq_true_eq] at hc
      omega
    · intro c hc
      simp only [List.mem_filter, decide_eq_true_eq] at hc
      omega
  · next h =>
    by_cases hx : x < a
    · apply Memory.read_filter_append
      · intro v
        simpa using hx
      · rw [Memory.read_append_of_absent (fun c hc => by have := Memory.cells_range hc; omega)]
        apply Memory.read_of_absent
        intro c hc
        simp only [List.mem_filter, decide_eq_true_eq] at hc
        omega
    · have hx2 : a + bs.length ≤ x := by omega
      rw [Memory.read_append_of_absent, Memory.read_append_of_absent]
      · have := Memory.read_filter_append (m := m) (a := x) (p := fun c => decide (a + bs.length ≤ c.1)) (m' := [])
          (fun v => by simpa using hx2) rfl
        simpa using this
      · intro c hc
        have := Memory.cells_range hc
        omega
      · intro c hc
        simp only [List.mem_filter, decide_eq_true_eq] at hc
        omega

theorem Memory.wfFrom_cons {lo b k : Nat} {v : Byte} {m : Memory} :
    Memory.wfFrom lo b ((k, v) :: m) = true ↔
      lo ≤ k ∧ k < b ∧ v ≠ Memory.filler ∧ Memory.wfFrom (k + 1) b m = true := by
  simp [Memory.wfFrom, and_assoc]

theorem Memory.wfFrom_mono {lo lo' b b' : Nat} {m : Memory} (h : lo' ≤ lo) (hb : b ≤ b') :
    Memory.wfFrom lo b m = true → Memory.wfFrom lo' b' m = true := by
  induction m generalizing lo lo' with
  | nil => intro; rfl
  | cons c m ih =>
    obtain ⟨k, v⟩ := c
    simp only [Memory.wfFrom_cons]
    rintro ⟨h1, h2, h3, h4⟩
    exact ⟨by omega, by omega, h3, ih (Nat.le_refl _) h4⟩

theorem Memory.wfFrom_mem {lo b : Nat} {m : Memory} (h : Memory.wfFrom lo b m = true) {c : Host.Cell} (hc : c ∈ m) :
    lo ≤ c.1 ∧ c.1 < b ∧ c.2 ≠ Memory.filler := by
  induction m generalizing lo with
  | nil => simp at hc
  | cons d m ih =>
    obtain ⟨k, v⟩ := d
    rw [Memory.wfFrom_cons] at h
    rcases List.mem_cons.mp hc with rfl | hc
    · exact ⟨h.1, h.2.1, h.2.2.1⟩
    · have := ih h.2.2.2 hc
      exact ⟨by omega, this.2⟩

/-- Two canonical parts, the first below `mid` and the second from `mid` on, join to a canonical memory. -/
theorem Memory.wfFrom_append {lo mid b : Nat} {m m' : Memory} (h : Memory.wfFrom lo mid m = true)
    (h' : Memory.wfFrom mid b m' = true) (hlo : lo ≤ mid) (hb : mid ≤ b) : Memory.wfFrom lo b (m ++ m') = true := by
  induction m generalizing lo with
  | nil => exact Memory.wfFrom_mono hlo (Nat.le_refl _) h'
  | cons c m ih =>
    obtain ⟨k, v⟩ := c
    rw [List.cons_append, Memory.wfFrom_cons]
    rw [Memory.wfFrom_cons] at h
    exact ⟨h.1, by omega, h.2.2.1, ih h.2.2.2 (by omega)⟩

theorem Memory.wfFrom_filter {lo b : Nat} {m : Memory} (p : Host.Cell → Bool) :
    Memory.wfFrom lo b m = true → Memory.wfFrom lo b (m.filter p) = true := by
  induction m generalizing lo with
  | nil => intro; rfl
  | cons c m ih =>
    obtain ⟨k, v⟩ := c
    rw [Memory.wfFrom_cons, List.filter_cons]
    rintro ⟨h1, h2, h3, h4⟩
    split
    · rw [Memory.wfFrom_cons]
      exact ⟨h1, h2, h3, ih h4⟩
    · exact Memory.wfFrom_mono (by omega) (Nat.le_refl _) (ih h4)

/-- A canonical list whose cells all lie in a narrower range is canonical for that range. -/
theorem Memory.wfFrom_narrow {lo lo' b b' : Nat} {m : Memory} (h : Memory.wfFrom lo b m = true)
    (hc : ∀ c ∈ m, lo' ≤ c.1 ∧ c.1 < b') : Memory.wfFrom lo' b' m = true := by
  induction m generalizing lo lo' with
  | nil => rfl
  | cons c m ih =>
    obtain ⟨k, v⟩ := c
    rw [Memory.wfFrom_cons] at h ⊢
    have hk := hc (k, v) (by simp)
    refine ⟨hk.1, hk.2, h.2.2.1, ih h.2.2.2 fun d hd => ?_⟩
    have := Memory.wfFrom_mem h.2.2.2 hd
    exact ⟨this.1, (hc d (by simp [hd])).2⟩

theorem Memory.cells_wf (a : Nat) (bs : List Byte) : Memory.wfFrom a (a + bs.length) (Memory.cells a bs) = true := by
  induction bs generalizing a with
  | nil => rfl
  | cons b bs ih =>
    have h := ih (a + 1)
    have e : a + 1 + bs.length = a + (b :: bs).length := by simp only [List.length_cons]; omega
    rw [e] at h
    rw [Memory.cells]
    split
    · exact Memory.wfFrom_mono (by omega) (Nat.le_refl _) h
    · next hb =>
      rw [Memory.wfFrom_cons]
      exact ⟨Nat.le_refl _, by simp, hb, h⟩

/-- A write inside the memory keeps the canonical form. -/
theorem Memory.writeBytes_wf {b : Nat} {m : Memory} (h : Memory.wf b m = true) (a : Nat) (bs : List Byte)
    (hb : a + bs.length ≤ b) : Memory.wf b (m.writeBytes a bs) = true := by
  unfold Memory.wf at h ⊢
  unfold Memory.writeBytes
  refine Memory.wfFrom_append (mid := a) ?_ (Memory.wfFrom_append (Memory.cells_wf a bs) ?_ (by omega) hb)
    (by omega) (by omega)
  · refine Memory.wfFrom_narrow (Memory.wfFrom_filter _ h) fun c hc => ?_
    simp only [List.mem_filter, decide_eq_true_eq] at hc
    omega
  · refine Memory.wfFrom_narrow (Memory.wfFrom_filter _ h) fun c hc => ?_
    have := Memory.wfFrom_mem (Memory.wfFrom_filter _ h) hc
    simp only [List.mem_filter, decide_eq_true_eq] at hc
    omega

theorem Memory.wf_nil (b : Nat) : Memory.wf b [] = true := rfl

/-- Nothing is read below the first cell of a canonical memory. -/
theorem Memory.read_below {lo b : Nat} {m : Memory} (h : Memory.wfFrom lo b m = true) {a : Nat} (ha : a < lo) :
    Memory.read m a = Memory.filler :=
  Memory.read_of_absent fun c hc => by have := Memory.wfFrom_mem h hc; omega

theorem Memory.ext_from {lo b b' : Nat} {m m' : Memory} (h : Memory.wfFrom lo b m = true)
    (h' : Memory.wfFrom lo b' m' = true) (e : ∀ a, Memory.read m a = Memory.read m' a) : m = m' := by
  induction m generalizing lo m' with
  | nil =>
    cases m' with
    | nil => rfl
    | cons c' m' =>
      obtain ⟨k', v'⟩ := c'
      rw [Memory.wfFrom_cons] at h'
      exact absurd (by simpa [Memory.read_cons] using (e k').symm) h'.2.2.1
  | cons c m ih =>
    obtain ⟨k, v⟩ := c
    rw [Memory.wfFrom_cons] at h
    cases m' with
    | nil => exact absurd (by simpa [Memory.read_cons] using e k) h.2.2.1
    | cons c' m' =>
      obtain ⟨k', v'⟩ := c'
      rw [Memory.wfFrom_cons] at h'
      have hkk : k = k' := by
        rcases Nat.lt_trichotomy k k' with hl | he | hg
        · have := e k
          rw [Memory.read_cons, if_pos rfl, Memory.read_cons, if_neg (by omega),
            Memory.read_below h'.2.2.2 (by omega)] at this
          exact absurd this h.2.2.1
        · exact he
        · have := e k'
          rw [Memory.read_cons, if_neg (by omega), Memory.read_below h.2.2.2 (by omega), Memory.read_cons,
            if_pos rfl] at this
          exact absurd this.symm h'.2.2.1
      subst hkk
      have hv : v = v' := by simpa [Memory.read_cons] using e k
      subst hv
      congr 1
      refine ih h.2.2.2 h'.2.2.2 fun a => ?_
      by_cases ha : k = a
      · subst ha
        rw [Memory.read_below h.2.2.2 (by omega), Memory.read_below h'.2.2.2 (by omega)]
      · have := e a
        rwa [Memory.read_cons, if_neg ha, Memory.read_cons, if_neg ha] at this

/-- Canonical memories that read the same are the same data. -/
theorem Memory.ext_of_wf {b b' : Nat} {m m' : Memory} (h : Memory.wf b m = true) (h' : Memory.wf b' m' = true)
    (e : ∀ a, Memory.read m a = Memory.read m' a) : m = m' :=
  Memory.ext_from h h' e

/-- The cells of a list of bytes read back as the list. -/
theorem Memory.read_cells (bs : List Byte) (x : Nat) (h : x < bs.length) :
    Memory.read (Memory.cells 0 bs) x = bs.getD x Memory.filler := by
  have := Memory.read_cells_append 0 x bs [] (Nat.zero_le _) (by omega) rfl
  simpa using this

end Sys2Proof
end

