-- ==== Sys2Proof/Laws/HexLoader.lean ====
section
/-! SUPPORT. What the host's HexLoader can answer: one line, the lines of a file, a load. -/

namespace Sys2Proof.Machine

variable {h : HexParams} {load : Nat}

/-! One record -/

/-- Where the fields can be decoded, the record is the decoded one. -/
theorem readRecord_of_decode {cs : List Byte} {r : HexRecord} (k : Nat) (e : decodeRecord cs = some r) :
    readRecord load k cs = some r := by
  rw [readRecord, e]

/-- The pairs of decoded digits are the line's. -/
theorem pairAt_of_hexBytes {n : Nat} {cs bs rest : List Byte} (e : hexBytes n cs = some (bs, rest)) {i : Nat} (hi : i < n) :
    pairAt cs i = bs[i]? := by
  induction n generalizing cs bs i with
  | zero => omega
  | succ n ih =>
    match cs with
    | [] => cases e
    | [_] => cases e
    | hi' :: lo :: cs =>
      simp only [hexBytes] at e
      split at e
      · rename_i b bs' rest' hb hbs
        cases e
        cases i with
        | zero => simpa [pairAt] using hb
        | succ i => simpa [pairAt] using ih hbs (by omega)
      · cases e

/-- The type of a record is the line's own TT (R225, R228). -/
theorem readRecord_kind {k : Nat} {cs : List Byte} {r : HexRecord} (e : readRecord load k cs = some r) :
    ∃ tt, pairAt cs 3 = some tt ∧ r.kind = tt.toNat := by
  unfold readRecord at e
  cases hd : decodeRecord cs with
  | some r' =>
    simp only [hd, Option.some.injEq] at e
    subst e
    unfold decodeRecord at hd
    split at hd
    · rename_i h4
      refine ⟨_, pairAt_of_hexBytes h4 (by omega), ?_⟩
      split at hd
      · cases hd
        rfl
      · cases hd
    · cases hd
  | none =>
    simp only [hd] at e
    cases ht : pairAt cs 3 with
    | none => simp [ht] at e
    | some tt =>
      simp only [ht] at e
      split at e
      · cases e
      · cases e
        exact ⟨tt, rfl, rfl⟩

/-- A line whose TT is neither 0 nor 1, or cannot be read, fails with malformed-file (R228; log entry 19). -/
theorem processLine_other_type {k : Nat} {b : Staging} {cs : List Byte} (h0 : pairAt cs 3 ≠ some 0)
    (h1 : pairAt cs 3 ≠ some 1) : processLine h load k b (58 :: cs) = .failed .malformedFile := by
  cases hr : readRecord load k cs with
  | none => simp only [processLine, ne_eq, not_true_eq_false, if_false, hr]
  | some r =>
    obtain ⟨tt, ht, hk⟩ := readRecord_kind hr
    have n0 : r.kind ≠ 0 := fun e => h0 (by rw [ht, show tt = 0 from BitVec.eq_of_toNat_eq (hk.symm.trans e)])
    have n1 : r.kind ≠ 1 := fun e => h1 (by rw [ht, show tt = 1 from BitVec.eq_of_toNat_eq (hk.symm.trans e)])
    simp only [processLine, ne_eq, not_true_eq_false, if_false, hr, n0, n1]

/-- An end-of-file outcome is that of a line with the marker and TT = 1 (R227). -/
theorem processLine_eof {k : Nat} {b : Staging} {l : List Byte} (e : processLine h load k b l = .eof) :
    ∃ cs, l = 58 :: cs ∧ pairAt cs 3 = some 1 := by
  match l with
  | [] => cases e
  | c :: cs =>
    by_cases hc : c = 58
    · subst hc
      refine ⟨cs, rfl, Decidable.byContradiction fun h1 => ?_⟩
      by_cases h0 : pairAt cs 3 = some 0
      · cases hr : readRecord load k cs with
        | none =>
          simp only [processLine, ne_eq, not_true_eq_false, if_false, hr] at e
          cases e
        | some r =>
          obtain ⟨tt, ht, hk⟩ := readRecord_kind hr
          rw [h0] at ht
          cases ht
          simp only [processLine, ne_eq, not_true_eq_false, if_false, hr] at e
          rw [if_pos (by simpa using hk)] at e
          split at e <;> cases e
      · rw [processLine_other_type h0 h1] at e
        cases e
    · simp only [processLine, ne_eq, hc, not_false_eq_true, if_true] at e
      cases e

/-- What a line with its marker can come to, once its record is read. -/
theorem processLine_record {k : Nat} {b : Staging} {cs : List Byte} {r : HexRecord} (e : readRecord load k cs = some r) :
    processLine h load k b (58 :: cs) =
      if r.kind = 0 then if r.sum ≠ 0 then .failed .checksumError else .placed (place b r.addr r.payload)
      else if r.kind = 1 then if h.checkEofSum && r.sum ≠ 0 then .failed .checksumError else .eof
      else .failed .malformedFile := by
  simp only [processLine, ne_eq, not_true_eq_false, if_false, e]

/-- A line that fails a load does so with malformed-file or checksum-error. -/
theorem processLine_failed {k : Nat} {b : Staging} {l : List Byte} {r : LoadResult}
    (e : processLine h load k b l = .failed r) : r = .malformedFile ∨ r = .checksumError := by
  unfold processLine at e
  repeat' split at e
  all_goals first
    | (injection e with e; subst e; first | exact .inl rfl | exact .inr rfl)
    | cases e

/-! The lines of a file -/

/-- Lines that fail a load do so with malformed-file or checksum-error. -/
theorem processLines_error {ls : List (List Byte)} {b : Staging} {seen : Bool} {r : LoadResult}
    (e : processLines h load b seen ls = .error r) : r = .malformedFile ∨ r = .checksumError := by
  induction ls generalizing b seen with
  | nil =>
    cases seen
    · cases e
      exact .inl rfl
    · cases e
  | cons l ls ih =>
    rw [processLines] at e
    split at e
    · exact ih e
    · split at e
      · exact ih e
      · split at e
        · exact ih e
        · cases e
      · rename_i hp
        cases e
        exact processLine_failed hp

/-- Lines that end well hold an end-of-file record (R230). -/
theorem processLines_ok {ls : List (List Byte)} {b c : Staging} (e : processLines h load b false ls = .ok c) :
    ∃ l ∈ ls, ∃ k b, processLine h load k b l = .eof := by
  induction ls generalizing b with
  | nil => cases e
  | cons l ls ih =>
    rw [processLines] at e
    have next {b'} (e : processLines h load b' false ls = .ok c) :
        ∃ m ∈ l :: ls, ∃ k b, processLine h load k b m = .eof := by
      obtain ⟨m, hm, hk⟩ := ih e
      exact ⟨m, List.mem_cons_of_mem _ hm, hk⟩
    split at e
    · exact next e
    · split at e
      · exact next e
      · rename_i hp
        exact ⟨l, List.mem_cons_self, _, _, hp⟩
      · cases e

/-! The staging buffer and a load -/

/-- The staged image is a 4096-byte value (R221). -/
theorem stagedImage_wf (b : Staging) : Memory.wf imgBytes (stagedImage load b) = true := by
  simpa [Memory.wf, stagedImage] using Memory.cells_wf 0 ((List.range imgBytes).map (stagedByte load b))

/-- A byte of the staged image. -/
theorem stagedImage_read (b : Staging) {a : Nat} (ha : a < imgBytes) :
    (stagedImage load b).read a = stagedByte load b a := by
  rw [stagedImage, Memory.read_cells _ _ (by simpa using ha), List.getD_eq_getElem?_getD, List.getElem?_map,
    List.getElem?_range ha, Option.map_some, Option.getD_some]

/-- What a load of a file can answer: a failure that stages nothing and persists nothing, or a success with the staged
image, persisting the path unless it is the first load. -/
theorem loadFile_cases (first : Bool) (file : Option (List Byte)) :
    ((loadFile h load first file).result ≠ .success ∧ (loadFile h load first file).staged = none ∧
      (loadFile h load first file).persistPath = false) ∨
    ∃ bytes b, file = some bytes ∧ processLines h load [] false (splitLines (detectEol bytes) bytes) = .ok b ∧
      loadFile h load first file =
        { result := .success, staged := some (stagedImage load b), persistPath := !first } := by
  cases file with
  | none => exact .inl ⟨by simp [loadFile], rfl, rfl⟩
  | some bytes =>
    simp only [loadFile]
    split
    · exact .inl ⟨by simp, rfl, rfl⟩
    · cases hp : processLines h load [] false (splitLines (detectEol bytes) bytes) with
      | error r =>
        refine .inl ⟨?_, rfl, rfl⟩
        rcases processLines_error hp with rfl | rfl <;> simp
      | ok b => exact .inr ⟨bytes, b, rfl, hp, rfl⟩

/-- What a load leaves of the host: the path persisted or not, one load more. -/
@[simp] theorem HexHost.load_host_files (t : HexHost) (first : Bool) (path : Path) :
    (t.load first path).2.files = t.files := rfl
@[simp] theorem HexHost.load_host_params (t : HexHost) (first : Bool) (path : Path) :
    (t.load first path).2.params = t.params := rfl
@[simp] theorem HexHost.load_host_loads (t : HexHost) (first : Bool) (path : Path) :
    (t.load first path).2.loads = t.loads + 1 := rfl
@[simp] theorem HexHost.load_host_lastUsed (t : HexHost) (first : Bool) (path : Path) :
    (t.load first path).2.lastUsed = if (t.load first path).1.persistPath then some path else t.lastUsed := rfl
@[simp] theorem HexHost.load_report (t : HexHost) (first : Bool) (path : Path) :
    (t.load first path).1 = loadFile t.params t.loads first (fileAt t.files path) := rfl

end Sys2Proof.Machine
end

