-- ==== Sys2Proof/Laws/State.lean ====
section
/-! SUPPORT. One lemma per field per update of the state. -/

namespace Sys2Proof.Machine

section
variable (s : State)

@[simp] theorem State.emit_img (e : Event) : (s.emit e).img = s.img := rfl
@[simp] theorem State.emit_imgValid (e : Event) : (s.emit e).imgValid = s.imgValid := rfl
@[simp] theorem State.emit_sel (e : Event) : (s.emit e).sel = s.sel := rfl
@[simp] theorem State.emit_op (e : Event) : (s.emit e).op = s.op := rfl
@[simp] theorem State.emit_result (e : Event) : (s.emit e).result = s.result := rfl
@[simp] theorem State.emit_status (e : Event) : (s.emit e).status = s.status := rfl
@[simp] theorem State.emit_busSel (e : Event) : (s.emit e).busSel = s.busSel := rfl
@[simp] theorem State.emit_clNcnt (e : Event) : (s.emit e).clNcnt = s.clNcnt := rfl
@[simp] theorem State.emit_clTmo (e : Event) : (s.emit e).clTmo = s.clTmo := rfl
@[simp] theorem State.emit_clPrev (e : Event) : (s.emit e).clPrev = s.clPrev := rfl
@[simp] theorem State.emit_clEdge (e : Event) : (s.emit e).clEdge = s.clEdge := rfl
@[simp] theorem State.emit_clByte (e : Event) : (s.emit e).clByte = s.clByte := rfl
@[simp] theorem State.emit_clBit (e : Event) : (s.emit e).clBit = s.clBit := rfl
@[simp] theorem State.emit_clCur (e : Event) : (s.emit e).clCur = s.clCur := rfl
@[simp] theorem State.emit_eeAddr (e : Event) : (s.emit e).eeAddr = s.eeAddr := rfl
@[simp] theorem State.emit_eeMism (e : Event) : (s.emit e).eeMism = s.eeMism := rfl
@[simp] theorem State.emit_eeMaddr (e : Event) : (s.emit e).eeMaddr = s.eeMaddr := rfl
@[simp] theorem State.emit_sda (e : Event) : (s.emit e).sda = s.sda := rfl
@[simp] theorem State.emit_notifyN (e : Event) : (s.emit e).notifyN = s.notifyN := rfl
@[simp] theorem State.emit_irqLock (e : Event) : (s.emit e).irqLock = s.irqLock := rfl
@[simp] theorem State.emit_busPin (e : Event) : (s.emit e).busPin = s.busPin := rfl
@[simp] theorem State.emit_ee (e : Event) : (s.emit e).ee = s.ee := rfl
@[simp] theorem State.emit_host (e : Event) : (s.emit e).host = s.host := rfl
@[simp] theorem State.emit_cfg (e : Event) : (s.emit e).cfg = s.cfg := rfl
@[simp] theorem State.emit_cmdIn (e : Event) : (s.emit e).cmdIn = s.cmdIn := rfl
@[simp] theorem State.emit_clkIn (e : Event) : (s.emit e).clkIn = s.clkIn := rfl
@[simp] theorem State.emit_probeIn (e : Event) : (s.emit e).probeIn = s.probeIn := rfl
@[simp] theorem State.emit_readErrIn (e : Event) : (s.emit e).readErrIn = s.readErrIn := rfl
@[simp] theorem State.emit_envIdx (e : Event) : (s.emit e).envIdx = s.envIdx := rfl
@[simp] theorem State.emit_restartIn (e : Event) : (s.emit e).restartIn = s.restartIn := rfl
@[simp] theorem State.emit_trace (e : Event) : (s.emit e).trace = e :: s.trace := rfl

@[simp] theorem State.wdtKick_img : (s.wdtKick).img = s.img := rfl
@[simp] theorem State.wdtKick_imgValid : (s.wdtKick).imgValid = s.imgValid := rfl
@[simp] theorem State.wdtKick_sel : (s.wdtKick).sel = s.sel := rfl
@[simp] theorem State.wdtKick_op : (s.wdtKick).op = s.op := rfl
@[simp] theorem State.wdtKick_result : (s.wdtKick).result = s.result := rfl
@[simp] theorem State.wdtKick_status : (s.wdtKick).status = s.status := rfl
@[simp] theorem State.wdtKick_busSel : (s.wdtKick).busSel = s.busSel := rfl
@[simp] theorem State.wdtKick_clNcnt : (s.wdtKick).clNcnt = s.clNcnt := rfl
@[simp] theorem State.wdtKick_clTmo : (s.wdtKick).clTmo = s.clTmo := rfl
@[simp] theorem State.wdtKick_clPrev : (s.wdtKick).clPrev = s.clPrev := rfl
@[simp] theorem State.wdtKick_clEdge : (s.wdtKick).clEdge = s.clEdge := rfl
@[simp] theorem State.wdtKick_clByte : (s.wdtKick).clByte = s.clByte := rfl
@[simp] theorem State.wdtKick_clBit : (s.wdtKick).clBit = s.clBit := rfl
@[simp] theorem State.wdtKick_clCur : (s.wdtKick).clCur = s.clCur := rfl
@[simp] theorem State.wdtKick_eeAddr : (s.wdtKick).eeAddr = s.eeAddr := rfl
@[simp] theorem State.wdtKick_eeMism : (s.wdtKick).eeMism = s.eeMism := rfl
@[simp] theorem State.wdtKick_eeMaddr : (s.wdtKick).eeMaddr = s.eeMaddr := rfl
@[simp] theorem State.wdtKick_sda : (s.wdtKick).sda = s.sda := rfl
@[simp] theorem State.wdtKick_notifyN : (s.wdtKick).notifyN = s.notifyN := rfl
@[simp] theorem State.wdtKick_irqLock : (s.wdtKick).irqLock = s.irqLock := rfl
@[simp] theorem State.wdtKick_busPin : (s.wdtKick).busPin = s.busPin := rfl
@[simp] theorem State.wdtKick_ee : (s.wdtKick).ee = s.ee := rfl
@[simp] theorem State.wdtKick_host : (s.wdtKick).host = s.host := rfl
@[simp] theorem State.wdtKick_cfg : (s.wdtKick).cfg = s.cfg := rfl
@[simp] theorem State.wdtKick_cmdIn : (s.wdtKick).cmdIn = s.cmdIn := rfl
@[simp] theorem State.wdtKick_clkIn : (s.wdtKick).clkIn = s.clkIn := rfl
@[simp] theorem State.wdtKick_probeIn : (s.wdtKick).probeIn = s.probeIn := rfl
@[simp] theorem State.wdtKick_readErrIn : (s.wdtKick).readErrIn = s.readErrIn := rfl
@[simp] theorem State.wdtKick_envIdx : (s.wdtKick).envIdx = s.envIdx := rfl
@[simp] theorem State.wdtKick_restartIn : (s.wdtKick).restartIn = s.restartIn := rfl
@[simp] theorem State.wdtKick_trace : (s.wdtKick).trace = .wdtKick :: s.trace := rfl

@[simp] theorem State.takeSample_img : (s.takeSample).img = s.img := rfl
@[simp] theorem State.takeSample_imgValid : (s.takeSample).imgValid = s.imgValid := rfl
@[simp] theorem State.takeSample_sel : (s.takeSample).sel = s.sel := rfl
@[simp] theorem State.takeSample_op : (s.takeSample).op = s.op := rfl
@[simp] theorem State.takeSample_result : (s.takeSample).result = s.result := rfl
@[simp] theorem State.takeSample_status : (s.takeSample).status = s.status := rfl
@[simp] theorem State.takeSample_busSel : (s.takeSample).busSel = s.busSel := rfl
@[simp] theorem State.takeSample_clNcnt : (s.takeSample).clNcnt = s.clNcnt := rfl
@[simp] theorem State.takeSample_clTmo : (s.takeSample).clTmo = s.clTmo := rfl
@[simp] theorem State.takeSample_clPrev : (s.takeSample).clPrev = s.clPrev := rfl
@[simp] theorem State.takeSample_clEdge : (s.takeSample).clEdge = s.clEdge := rfl
@[simp] theorem State.takeSample_clByte : (s.takeSample).clByte = s.clByte := rfl
@[simp] theorem State.takeSample_clBit : (s.takeSample).clBit = s.clBit := rfl
@[simp] theorem State.takeSample_clCur : (s.takeSample).clCur = s.clCur := rfl
@[simp] theorem State.takeSample_eeAddr : (s.takeSample).eeAddr = s.eeAddr := rfl
@[simp] theorem State.takeSample_eeMism : (s.takeSample).eeMism = s.eeMism := rfl
@[simp] theorem State.takeSample_eeMaddr : (s.takeSample).eeMaddr = s.eeMaddr := rfl
@[simp] theorem State.takeSample_sda : (s.takeSample).sda = s.sda := rfl
@[simp] theorem State.takeSample_notifyN : (s.takeSample).notifyN = s.notifyN := rfl
@[simp] theorem State.takeSample_irqLock : (s.takeSample).irqLock = s.irqLock := rfl
@[simp] theorem State.takeSample_busPin : (s.takeSample).busPin = s.busPin := rfl
@[simp] theorem State.takeSample_ee : (s.takeSample).ee = s.ee := rfl
@[simp] theorem State.takeSample_host : (s.takeSample).host = s.host := rfl
@[simp] theorem State.takeSample_cfg : (s.takeSample).cfg = s.cfg := rfl
@[simp] theorem State.takeSample_cmdIn : (s.takeSample).cmdIn = s.cmdIn := rfl
@[simp] theorem State.takeSample_clkIn : (s.takeSample).clkIn = s.clkIn.tail := rfl
@[simp] theorem State.takeSample_probeIn : (s.takeSample).probeIn = s.probeIn := rfl
@[simp] theorem State.takeSample_readErrIn : (s.takeSample).readErrIn = s.readErrIn := rfl
@[simp] theorem State.takeSample_envIdx : (s.takeSample).envIdx = if s.clkIn = [] then s.envIdx + 1 else s.envIdx := rfl
@[simp] theorem State.takeSample_restartIn : (s.takeSample).restartIn = s.restartIn := rfl
@[simp] theorem State.takeSample_trace : (s.takeSample).trace = .clkSample s.clkLevel :: s.trace := rfl

@[simp] theorem State.takeProbe_img : (s.takeProbe).img = s.img := rfl
@[simp] theorem State.takeProbe_imgValid : (s.takeProbe).imgValid = s.imgValid := rfl
@[simp] theorem State.takeProbe_sel : (s.takeProbe).sel = s.sel := rfl
@[simp] theorem State.takeProbe_op : (s.takeProbe).op = s.op := rfl
@[simp] theorem State.takeProbe_result : (s.takeProbe).result = s.result := rfl
@[simp] theorem State.takeProbe_status : (s.takeProbe).status = s.status := rfl
@[simp] theorem State.takeProbe_busSel : (s.takeProbe).busSel = s.busSel := rfl
@[simp] theorem State.takeProbe_clNcnt : (s.takeProbe).clNcnt = s.clNcnt := rfl
@[simp] theorem State.takeProbe_clTmo : (s.takeProbe).clTmo = s.clTmo := rfl
@[simp] theorem State.takeProbe_clPrev : (s.takeProbe).clPrev = s.clPrev := rfl
@[simp] theorem State.takeProbe_clEdge : (s.takeProbe).clEdge = s.clEdge := rfl
@[simp] theorem State.takeProbe_clByte : (s.takeProbe).clByte = s.clByte := rfl
@[simp] theorem State.takeProbe_clBit : (s.takeProbe).clBit = s.clBit := rfl
@[simp] theorem State.takeProbe_clCur : (s.takeProbe).clCur = s.clCur := rfl
@[simp] theorem State.takeProbe_eeAddr : (s.takeProbe).eeAddr = s.eeAddr := rfl
@[simp] theorem State.takeProbe_eeMism : (s.takeProbe).eeMism = s.eeMism := rfl
@[simp] theorem State.takeProbe_eeMaddr : (s.takeProbe).eeMaddr = s.eeMaddr := rfl
@[simp] theorem State.takeProbe_sda : (s.takeProbe).sda = s.sda := rfl
@[simp] theorem State.takeProbe_notifyN : (s.takeProbe).notifyN = s.notifyN := rfl
@[simp] theorem State.takeProbe_irqLock : (s.takeProbe).irqLock = s.irqLock := rfl
@[simp] theorem State.takeProbe_busPin : (s.takeProbe).busPin = s.busPin := rfl
@[simp] theorem State.takeProbe_ee : (s.takeProbe).ee = s.ee := rfl
@[simp] theorem State.takeProbe_host : (s.takeProbe).host = s.host := rfl
@[simp] theorem State.takeProbe_cfg : (s.takeProbe).cfg = s.cfg := rfl
@[simp] theorem State.takeProbe_cmdIn : (s.takeProbe).cmdIn = s.cmdIn := rfl
@[simp] theorem State.takeProbe_clkIn : (s.takeProbe).clkIn = s.clkIn := rfl
@[simp] theorem State.takeProbe_probeIn : (s.takeProbe).probeIn = s.probeIn.tail := rfl
@[simp] theorem State.takeProbe_readErrIn : (s.takeProbe).readErrIn = s.readErrIn := rfl
@[simp] theorem State.takeProbe_envIdx : (s.takeProbe).envIdx = if s.probeIn = [] then s.envIdx + 1 else s.envIdx := rfl
@[simp] theorem State.takeProbe_restartIn : (s.takeProbe).restartIn = s.restartIn := rfl
@[simp] theorem State.takeProbe_trace : (s.takeProbe).trace = .eeProbe s.probeAnswer :: s.trace := rfl

@[simp] theorem State.takeRead_img (a n : Nat) : (s.takeRead a n).img = s.img := rfl
@[simp] theorem State.takeRead_imgValid (a n : Nat) : (s.takeRead a n).imgValid = s.imgValid := rfl
@[simp] theorem State.takeRead_sel (a n : Nat) : (s.takeRead a n).sel = s.sel := rfl
@[simp] theorem State.takeRead_op (a n : Nat) : (s.takeRead a n).op = s.op := rfl
@[simp] theorem State.takeRead_result (a n : Nat) : (s.takeRead a n).result = s.result := rfl
@[simp] theorem State.takeRead_status (a n : Nat) : (s.takeRead a n).status = s.status := rfl
@[simp] theorem State.takeRead_busSel (a n : Nat) : (s.takeRead a n).busSel = s.busSel := rfl
@[simp] theorem State.takeRead_clNcnt (a n : Nat) : (s.takeRead a n).clNcnt = s.clNcnt := rfl
@[simp] theorem State.takeRead_clTmo (a n : Nat) : (s.takeRead a n).clTmo = s.clTmo := rfl
@[simp] theorem State.takeRead_clPrev (a n : Nat) : (s.takeRead a n).clPrev = s.clPrev := rfl
@[simp] theorem State.takeRead_clEdge (a n : Nat) : (s.takeRead a n).clEdge = s.clEdge := rfl
@[simp] theorem State.takeRead_clByte (a n : Nat) : (s.takeRead a n).clByte = s.clByte := rfl
@[simp] theorem State.takeRead_clBit (a n : Nat) : (s.takeRead a n).clBit = s.clBit := rfl
@[simp] theorem State.takeRead_clCur (a n : Nat) : (s.takeRead a n).clCur = s.clCur := rfl
@[simp] theorem State.takeRead_eeAddr (a n : Nat) : (s.takeRead a n).eeAddr = s.eeAddr := rfl
@[simp] theorem State.takeRead_eeMism (a n : Nat) : (s.takeRead a n).eeMism = s.eeMism := rfl
@[simp] theorem State.takeRead_eeMaddr (a n : Nat) : (s.takeRead a n).eeMaddr = s.eeMaddr := rfl
@[simp] theorem State.takeRead_sda (a n : Nat) : (s.takeRead a n).sda = s.sda := rfl
@[simp] theorem State.takeRead_notifyN (a n : Nat) : (s.takeRead a n).notifyN = s.notifyN := rfl
@[simp] theorem State.takeRead_irqLock (a n : Nat) : (s.takeRead a n).irqLock = s.irqLock := rfl
@[simp] theorem State.takeRead_busPin (a n : Nat) : (s.takeRead a n).busPin = s.busPin := rfl
@[simp] theorem State.takeRead_ee (a n : Nat) : (s.takeRead a n).ee = s.ee := rfl
@[simp] theorem State.takeRead_host (a n : Nat) : (s.takeRead a n).host = s.host := rfl
@[simp] theorem State.takeRead_cfg (a n : Nat) : (s.takeRead a n).cfg = s.cfg := rfl
@[simp] theorem State.takeRead_cmdIn (a n : Nat) : (s.takeRead a n).cmdIn = s.cmdIn := rfl
@[simp] theorem State.takeRead_clkIn (a n : Nat) : (s.takeRead a n).clkIn = s.clkIn := rfl
@[simp] theorem State.takeRead_probeIn (a n : Nat) : (s.takeRead a n).probeIn = s.probeIn := rfl
@[simp] theorem State.takeRead_readErrIn (a n : Nat) : (s.takeRead a n).readErrIn = s.readErrIn.tail := rfl
@[simp] theorem State.takeRead_envIdx (a n : Nat) : (s.takeRead a n).envIdx = if s.readErrIn = [] then s.envIdx + 1 else s.envIdx := rfl
@[simp] theorem State.takeRead_restartIn (a n : Nat) : (s.takeRead a n).restartIn = s.restartIn := rfl
@[simp] theorem State.takeRead_trace (a n : Nat) : (s.takeRead a n).trace = .eeRead a (s.readAnswer a n) :: s.trace := rfl

@[simp] theorem State.eeWrite_img (a : Nat) (v : List Byte) : (s.eeWrite a v).img = s.img := rfl
@[simp] theorem State.eeWrite_imgValid (a : Nat) (v : List Byte) : (s.eeWrite a v).imgValid = s.imgValid := rfl
@[simp] theorem State.eeWrite_sel (a : Nat) (v : List Byte) : (s.eeWrite a v).sel = s.sel := rfl
@[simp] theorem State.eeWrite_op (a : Nat) (v : List Byte) : (s.eeWrite a v).op = s.op := rfl
@[simp] theorem State.eeWrite_result (a : Nat) (v : List Byte) : (s.eeWrite a v).result = s.result := rfl
@[simp] theorem State.eeWrite_status (a : Nat) (v : List Byte) : (s.eeWrite a v).status = s.status := rfl
@[simp] theorem State.eeWrite_busSel (a : Nat) (v : List Byte) : (s.eeWrite a v).busSel = s.busSel := rfl
@[simp] theorem State.eeWrite_clNcnt (a : Nat) (v : List Byte) : (s.eeWrite a v).clNcnt = s.clNcnt := rfl
@[simp] theorem State.eeWrite_clTmo (a : Nat) (v : List Byte) : (s.eeWrite a v).clTmo = s.clTmo := rfl
@[simp] theorem State.eeWrite_clPrev (a : Nat) (v : List Byte) : (s.eeWrite a v).clPrev = s.clPrev := rfl
@[simp] theorem State.eeWrite_clEdge (a : Nat) (v : List Byte) : (s.eeWrite a v).clEdge = s.clEdge := rfl
@[simp] theorem State.eeWrite_clByte (a : Nat) (v : List Byte) : (s.eeWrite a v).clByte = s.clByte := rfl
@[simp] theorem State.eeWrite_clBit (a : Nat) (v : List Byte) : (s.eeWrite a v).clBit = s.clBit := rfl
@[simp] theorem State.eeWrite_clCur (a : Nat) (v : List Byte) : (s.eeWrite a v).clCur = s.clCur := rfl
@[simp] theorem State.eeWrite_eeAddr (a : Nat) (v : List Byte) : (s.eeWrite a v).eeAddr = s.eeAddr := rfl
@[simp] theorem State.eeWrite_eeMism (a : Nat) (v : List Byte) : (s.eeWrite a v).eeMism = s.eeMism := rfl
@[simp] theorem State.eeWrite_eeMaddr (a : Nat) (v : List Byte) : (s.eeWrite a v).eeMaddr = s.eeMaddr := rfl
@[simp] theorem State.eeWrite_sda (a : Nat) (v : List Byte) : (s.eeWrite a v).sda = s.sda := rfl
@[simp] theorem State.eeWrite_notifyN (a : Nat) (v : List Byte) : (s.eeWrite a v).notifyN = s.notifyN := rfl
@[simp] theorem State.eeWrite_irqLock (a : Nat) (v : List Byte) : (s.eeWrite a v).irqLock = s.irqLock := rfl
@[simp] theorem State.eeWrite_busPin (a : Nat) (v : List Byte) : (s.eeWrite a v).busPin = s.busPin := rfl
@[simp] theorem State.eeWrite_ee (a : Nat) (v : List Byte) : (s.eeWrite a v).ee = s.ee.writeBytes a v := rfl
@[simp] theorem State.eeWrite_host (a : Nat) (v : List Byte) : (s.eeWrite a v).host = s.host := rfl
@[simp] theorem State.eeWrite_cfg (a : Nat) (v : List Byte) : (s.eeWrite a v).cfg = s.cfg := rfl
@[simp] theorem State.eeWrite_cmdIn (a : Nat) (v : List Byte) : (s.eeWrite a v).cmdIn = s.cmdIn := rfl
@[simp] theorem State.eeWrite_clkIn (a : Nat) (v : List Byte) : (s.eeWrite a v).clkIn = s.clkIn := rfl
@[simp] theorem State.eeWrite_probeIn (a : Nat) (v : List Byte) : (s.eeWrite a v).probeIn = s.probeIn := rfl
@[simp] theorem State.eeWrite_readErrIn (a : Nat) (v : List Byte) : (s.eeWrite a v).readErrIn = s.readErrIn := rfl
@[simp] theorem State.eeWrite_envIdx (a : Nat) (v : List Byte) : (s.eeWrite a v).envIdx = s.envIdx := rfl
@[simp] theorem State.eeWrite_restartIn (a : Nat) (v : List Byte) : (s.eeWrite a v).restartIn = s.restartIn := rfl
@[simp] theorem State.eeWrite_trace (a : Nat) (v : List Byte) : (s.eeWrite a v).trace = .eeWrite a v :: s.trace := rfl

@[simp] theorem State.complete_img (v : Bool) : (s.complete v).img = s.img := rfl
@[simp] theorem State.complete_imgValid (v : Bool) : (s.complete v).imgValid = s.imgValid := rfl
@[simp] theorem State.complete_sel (v : Bool) : (s.complete v).sel = s.sel := rfl
@[simp] theorem State.complete_op (v : Bool) : (s.complete v).op = s.op := rfl
@[simp] theorem State.complete_result (v : Bool) : (s.complete v).result = v := rfl
@[simp] theorem State.complete_status (v : Bool) : (s.complete v).status = .ok := rfl
@[simp] theorem State.complete_busSel (v : Bool) : (s.complete v).busSel = s.busSel := rfl
@[simp] theorem State.complete_clNcnt (v : Bool) : (s.complete v).clNcnt = s.clNcnt := rfl
@[simp] theorem State.complete_clTmo (v : Bool) : (s.complete v).clTmo = s.clTmo := rfl
@[simp] theorem State.complete_clPrev (v : Bool) : (s.complete v).clPrev = s.clPrev := rfl
@[simp] theorem State.complete_clEdge (v : Bool) : (s.complete v).clEdge = s.clEdge := rfl
@[simp] theorem State.complete_clByte (v : Bool) : (s.complete v).clByte = s.clByte := rfl
@[simp] theorem State.complete_clBit (v : Bool) : (s.complete v).clBit = s.clBit := rfl
@[simp] theorem State.complete_clCur (v : Bool) : (s.complete v).clCur = s.clCur := rfl
@[simp] theorem State.complete_eeAddr (v : Bool) : (s.complete v).eeAddr = s.eeAddr := rfl
@[simp] theorem State.complete_eeMism (v : Bool) : (s.complete v).eeMism = s.eeMism := rfl
@[simp] theorem State.complete_eeMaddr (v : Bool) : (s.complete v).eeMaddr = s.eeMaddr := rfl
@[simp] theorem State.complete_sda (v : Bool) : (s.complete v).sda = s.sda := rfl
@[simp] theorem State.complete_notifyN (v : Bool) : (s.complete v).notifyN = s.notifyN := rfl
@[simp] theorem State.complete_irqLock (v : Bool) : (s.complete v).irqLock = s.irqLock := rfl
@[simp] theorem State.complete_busPin (v : Bool) : (s.complete v).busPin = s.busPin := rfl
@[simp] theorem State.complete_ee (v : Bool) : (s.complete v).ee = s.ee := rfl
@[simp] theorem State.complete_host (v : Bool) : (s.complete v).host = s.host := rfl
@[simp] theorem State.complete_cfg (v : Bool) : (s.complete v).cfg = s.cfg := rfl
@[simp] theorem State.complete_cmdIn (v : Bool) : (s.complete v).cmdIn = s.cmdIn := rfl
@[simp] theorem State.complete_clkIn (v : Bool) : (s.complete v).clkIn = s.clkIn := rfl
@[simp] theorem State.complete_probeIn (v : Bool) : (s.complete v).probeIn = s.probeIn := rfl
@[simp] theorem State.complete_readErrIn (v : Bool) : (s.complete v).readErrIn = s.readErrIn := rfl
@[simp] theorem State.complete_envIdx (v : Bool) : (s.complete v).envIdx = s.envIdx := rfl
@[simp] theorem State.complete_restartIn (v : Bool) : (s.complete v).restartIn = s.restartIn := rfl
@[simp] theorem State.complete_trace (v : Bool) : (s.complete v).trace = s.trace := rfl

@[simp] theorem State.raise_img (st : Status) (info : Option Nat) : (s.raise st info).img = s.img := rfl
@[simp] theorem State.raise_imgValid (st : Status) (info : Option Nat) : (s.raise st info).imgValid = s.imgValid := rfl
@[simp] theorem State.raise_sel (st : Status) (info : Option Nat) : (s.raise st info).sel = s.sel := rfl
@[simp] theorem State.raise_op (st : Status) (info : Option Nat) : (s.raise st info).op = .idle := rfl
@[simp] theorem State.raise_result (st : Status) (info : Option Nat) : (s.raise st info).result = false := rfl
@[simp] theorem State.raise_status (st : Status) (info : Option Nat) : (s.raise st info).status = st := rfl
@[simp] theorem State.raise_busSel (st : Status) (info : Option Nat) : (s.raise st info).busSel = s.busSel := rfl
@[simp] theorem State.raise_clNcnt (st : Status) (info : Option Nat) : (s.raise st info).clNcnt = s.clNcnt := rfl
@[simp] theorem State.raise_clTmo (st : Status) (info : Option Nat) : (s.raise st info).clTmo = s.clTmo := rfl
@[simp] theorem State.raise_clPrev (st : Status) (info : Option Nat) : (s.raise st info).clPrev = s.clPrev := rfl
@[simp] theorem State.raise_clEdge (st : Status) (info : Option Nat) : (s.raise st info).clEdge = s.clEdge := rfl
@[simp] theorem State.raise_clByte (st : Status) (info : Option Nat) : (s.raise st info).clByte = s.clByte := rfl
@[simp] theorem State.raise_clBit (st : Status) (info : Option Nat) : (s.raise st info).clBit = s.clBit := rfl
@[simp] theorem State.raise_clCur (st : Status) (info : Option Nat) : (s.raise st info).clCur = s.clCur := rfl
@[simp] theorem State.raise_eeAddr (st : Status) (info : Option Nat) : (s.raise st info).eeAddr = s.eeAddr := rfl
@[simp] theorem State.raise_eeMism (st : Status) (info : Option Nat) : (s.raise st info).eeMism = s.eeMism := rfl
@[simp] theorem State.raise_eeMaddr (st : Status) (info : Option Nat) : (s.raise st info).eeMaddr = s.eeMaddr := rfl
@[simp] theorem State.raise_sda (st : Status) (info : Option Nat) : (s.raise st info).sda = if s.op.inTransfer then true else s.sda := rfl
@[simp] theorem State.raise_notifyN (st : Status) (info : Option Nat) : (s.raise st info).notifyN = if s.op.inTransfer then true else s.notifyN := rfl
@[simp] theorem State.raise_irqLock (st : Status) (info : Option Nat) : (s.raise st info).irqLock = if s.op.inTransfer then false else s.irqLock := rfl
@[simp] theorem State.raise_busPin (st : Status) (info : Option Nat) : (s.raise st info).busPin = s.busPin := rfl
@[simp] theorem State.raise_ee (st : Status) (info : Option Nat) : (s.raise st info).ee = s.ee := rfl
@[simp] theorem State.raise_host (st : Status) (info : Option Nat) : (s.raise st info).host = s.host := rfl
@[simp] theorem State.raise_cfg (st : Status) (info : Option Nat) : (s.raise st info).cfg = s.cfg := rfl
@[simp] theorem State.raise_cmdIn (st : Status) (info : Option Nat) : (s.raise st info).cmdIn = s.cmdIn := rfl
@[simp] theorem State.raise_clkIn (st : Status) (info : Option Nat) : (s.raise st info).clkIn = s.clkIn := rfl
@[simp] theorem State.raise_probeIn (st : Status) (info : Option Nat) : (s.raise st info).probeIn = s.probeIn := rfl
@[simp] theorem State.raise_readErrIn (st : Status) (info : Option Nat) : (s.raise st info).readErrIn = s.readErrIn := rfl
@[simp] theorem State.raise_envIdx (st : Status) (info : Option Nat) : (s.raise st info).envIdx = s.envIdx := rfl
@[simp] theorem State.raise_restartIn (st : Status) (info : Option Nat) : (s.raise st info).restartIn = s.restartIn := rfl
@[simp] theorem State.raise_trace (st : Status) (info : Option Nat) : (s.raise st info).trace = .failure st info :: s.trace := rfl

@[simp] theorem State.setBus_img (b : BusSel) : (s.setBus b).img = s.img := rfl
@[simp] theorem State.setBus_imgValid (b : BusSel) : (s.setBus b).imgValid = s.imgValid := rfl
@[simp] theorem State.setBus_sel (b : BusSel) : (s.setBus b).sel = s.sel := rfl
@[simp] theorem State.setBus_op (b : BusSel) : (s.setBus b).op = s.op := rfl
@[simp] theorem State.setBus_result (b : BusSel) : (s.setBus b).result = s.result := rfl
@[simp] theorem State.setBus_status (b : BusSel) : (s.setBus b).status = s.status := rfl
@[simp] theorem State.setBus_busSel (b : BusSel) : (s.setBus b).busSel = b := rfl
@[simp] theorem State.setBus_clNcnt (b : BusSel) : (s.setBus b).clNcnt = s.clNcnt := rfl
@[simp] theorem State.setBus_clTmo (b : BusSel) : (s.setBus b).clTmo = s.clTmo := rfl
@[simp] theorem State.setBus_clPrev (b : BusSel) : (s.setBus b).clPrev = s.clPrev := rfl
@[simp] theorem State.setBus_clEdge (b : BusSel) : (s.setBus b).clEdge = s.clEdge := rfl
@[simp] theorem State.setBus_clByte (b : BusSel) : (s.setBus b).clByte = s.clByte := rfl
@[simp] theorem State.setBus_clBit (b : BusSel) : (s.setBus b).clBit = s.clBit := rfl
@[simp] theorem State.setBus_clCur (b : BusSel) : (s.setBus b).clCur = s.clCur := rfl
@[simp] theorem State.setBus_eeAddr (b : BusSel) : (s.setBus b).eeAddr = s.eeAddr := rfl
@[simp] theorem State.setBus_eeMism (b : BusSel) : (s.setBus b).eeMism = s.eeMism := rfl
@[simp] theorem State.setBus_eeMaddr (b : BusSel) : (s.setBus b).eeMaddr = s.eeMaddr := rfl
@[simp] theorem State.setBus_sda (b : BusSel) : (s.setBus b).sda = s.sda := rfl
@[simp] theorem State.setBus_notifyN (b : BusSel) : (s.setBus b).notifyN = s.notifyN := rfl
@[simp] theorem State.setBus_irqLock (b : BusSel) : (s.setBus b).irqLock = s.irqLock := rfl
@[simp] theorem State.setBus_busPin (b : BusSel) : (s.setBus b).busPin = s.cfg.busPins b := rfl
@[simp] theorem State.setBus_ee (b : BusSel) : (s.setBus b).ee = s.ee := rfl
@[simp] theorem State.setBus_host (b : BusSel) : (s.setBus b).host = s.host := rfl
@[simp] theorem State.setBus_cfg (b : BusSel) : (s.setBus b).cfg = s.cfg := rfl
@[simp] theorem State.setBus_cmdIn (b : BusSel) : (s.setBus b).cmdIn = s.cmdIn := rfl
@[simp] theorem State.setBus_clkIn (b : BusSel) : (s.setBus b).clkIn = s.clkIn := rfl
@[simp] theorem State.setBus_probeIn (b : BusSel) : (s.setBus b).probeIn = s.probeIn := rfl
@[simp] theorem State.setBus_readErrIn (b : BusSel) : (s.setBus b).readErrIn = s.readErrIn := rfl
@[simp] theorem State.setBus_envIdx (b : BusSel) : (s.setBus b).envIdx = s.envIdx := rfl
@[simp] theorem State.setBus_restartIn (b : BusSel) : (s.setBus b).restartIn = s.restartIn := rfl
@[simp] theorem State.setBus_trace (b : BusSel) : (s.setBus b).trace = s.trace := rfl

@[simp] theorem State.replaceImage_img (m : Memory) : (s.replaceImage m).img = m := rfl
@[simp] theorem State.replaceImage_imgValid (m : Memory) : (s.replaceImage m).imgValid = true := rfl
@[simp] theorem State.replaceImage_sel (m : Memory) : (s.replaceImage m).sel = 0 := rfl
@[simp] theorem State.replaceImage_op (m : Memory) : (s.replaceImage m).op = s.op := rfl
@[simp] theorem State.replaceImage_result (m : Memory) : (s.replaceImage m).result = true := rfl
@[simp] theorem State.replaceImage_status (m : Memory) : (s.replaceImage m).status = .ok := rfl
@[simp] theorem State.replaceImage_busSel (m : Memory) : (s.replaceImage m).busSel = s.busSel := rfl
@[simp] theorem State.replaceImage_clNcnt (m : Memory) : (s.replaceImage m).clNcnt = s.clNcnt := rfl
@[simp] theorem State.replaceImage_clTmo (m : Memory) : (s.replaceImage m).clTmo = s.clTmo := rfl
@[simp] theorem State.replaceImage_clPrev (m : Memory) : (s.replaceImage m).clPrev = s.clPrev := rfl
@[simp] theorem State.replaceImage_clEdge (m : Memory) : (s.replaceImage m).clEdge = s.clEdge := rfl
@[simp] theorem State.replaceImage_clByte (m : Memory) : (s.replaceImage m).clByte = s.clByte := rfl
@[simp] theorem State.replaceImage_clBit (m : Memory) : (s.replaceImage m).clBit = s.clBit := rfl
@[simp] theorem State.replaceImage_clCur (m : Memory) : (s.replaceImage m).clCur = s.clCur := rfl
@[simp] theorem State.replaceImage_eeAddr (m : Memory) : (s.replaceImage m).eeAddr = s.eeAddr := rfl
@[simp] theorem State.replaceImage_eeMism (m : Memory) : (s.replaceImage m).eeMism = s.eeMism := rfl
@[simp] theorem State.replaceImage_eeMaddr (m : Memory) : (s.replaceImage m).eeMaddr = s.eeMaddr := rfl
@[simp] theorem State.replaceImage_sda (m : Memory) : (s.replaceImage m).sda = s.sda := rfl
@[simp] theorem State.replaceImage_notifyN (m : Memory) : (s.replaceImage m).notifyN = s.notifyN := rfl
@[simp] theorem State.replaceImage_irqLock (m : Memory) : (s.replaceImage m).irqLock = s.irqLock := rfl
@[simp] theorem State.replaceImage_busPin (m : Memory) : (s.replaceImage m).busPin = s.busPin := rfl
@[simp] theorem State.replaceImage_ee (m : Memory) : (s.replaceImage m).ee = s.ee := rfl
@[simp] theorem State.replaceImage_host (m : Memory) : (s.replaceImage m).host = s.host := rfl
@[simp] theorem State.replaceImage_cfg (m : Memory) : (s.replaceImage m).cfg = s.cfg := rfl
@[simp] theorem State.replaceImage_cmdIn (m : Memory) : (s.replaceImage m).cmdIn = s.cmdIn := rfl
@[simp] theorem State.replaceImage_clkIn (m : Memory) : (s.replaceImage m).clkIn = s.clkIn := rfl
@[simp] theorem State.replaceImage_probeIn (m : Memory) : (s.replaceImage m).probeIn = s.probeIn := rfl
@[simp] theorem State.replaceImage_readErrIn (m : Memory) : (s.replaceImage m).readErrIn = s.readErrIn := rfl
@[simp] theorem State.replaceImage_envIdx (m : Memory) : (s.replaceImage m).envIdx = s.envIdx := rfl
@[simp] theorem State.replaceImage_restartIn (m : Memory) : (s.replaceImage m).restartIn = s.restartIn := rfl
@[simp] theorem State.replaceImage_trace (m : Memory) : (s.replaceImage m).trace = s.trace := rfl

@[simp] theorem State.transferStart_img : (s.transferStart).img = s.img := rfl
@[simp] theorem State.transferStart_imgValid : (s.transferStart).imgValid = s.imgValid := rfl
@[simp] theorem State.transferStart_sel : (s.transferStart).sel = s.sel := rfl
@[simp] theorem State.transferStart_op : (s.transferStart).op = .xferNotify := rfl
@[simp] theorem State.transferStart_result : (s.transferStart).result = s.result := rfl
@[simp] theorem State.transferStart_status : (s.transferStart).status = s.status := rfl
@[simp] theorem State.transferStart_busSel : (s.transferStart).busSel = s.busSel := rfl
@[simp] theorem State.transferStart_clNcnt : (s.transferStart).clNcnt = s.cfg.notifyIter := rfl
@[simp] theorem State.transferStart_clTmo : (s.transferStart).clTmo = s.clTmo := rfl
@[simp] theorem State.transferStart_clPrev : (s.transferStart).clPrev = s.clPrev := rfl
@[simp] theorem State.transferStart_clEdge : (s.transferStart).clEdge = s.clEdge := rfl
@[simp] theorem State.transferStart_clByte : (s.transferStart).clByte = s.clByte := rfl
@[simp] theorem State.transferStart_clBit : (s.transferStart).clBit = s.clBit := rfl
@[simp] theorem State.transferStart_clCur : (s.transferStart).clCur = s.clCur := rfl
@[simp] theorem State.transferStart_eeAddr : (s.transferStart).eeAddr = s.eeAddr := rfl
@[simp] theorem State.transferStart_eeMism : (s.transferStart).eeMism = s.eeMism := rfl
@[simp] theorem State.transferStart_eeMaddr : (s.transferStart).eeMaddr = s.eeMaddr := rfl
@[simp] theorem State.transferStart_sda : (s.transferStart).sda = true := rfl
@[simp] theorem State.transferStart_notifyN : (s.transferStart).notifyN = false := rfl
@[simp] theorem State.transferStart_irqLock : (s.transferStart).irqLock = true := rfl
@[simp] theorem State.transferStart_busPin : (s.transferStart).busPin = s.busPin := rfl
@[simp] theorem State.transferStart_ee : (s.transferStart).ee = s.ee := rfl
@[simp] theorem State.transferStart_host : (s.transferStart).host = s.host := rfl
@[simp] theorem State.transferStart_cfg : (s.transferStart).cfg = s.cfg := rfl
@[simp] theorem State.transferStart_cmdIn : (s.transferStart).cmdIn = s.cmdIn := rfl
@[simp] theorem State.transferStart_clkIn : (s.transferStart).clkIn = s.clkIn := rfl
@[simp] theorem State.transferStart_probeIn : (s.transferStart).probeIn = s.probeIn := rfl
@[simp] theorem State.transferStart_readErrIn : (s.transferStart).readErrIn = s.readErrIn := rfl
@[simp] theorem State.transferStart_envIdx : (s.transferStart).envIdx = s.envIdx := rfl
@[simp] theorem State.transferStart_restartIn : (s.transferStart).restartIn = s.restartIn := rfl
@[simp] theorem State.transferStart_trace : (s.transferStart).trace = .transferStart :: s.trace := rfl

@[simp] theorem State.notifyRelease_img : (s.notifyRelease).img = s.img := rfl
@[simp] theorem State.notifyRelease_imgValid : (s.notifyRelease).imgValid = s.imgValid := rfl
@[simp] theorem State.notifyRelease_sel : (s.notifyRelease).sel = s.sel := rfl
@[simp] theorem State.notifyRelease_op : (s.notifyRelease).op = .xferHeader := rfl
@[simp] theorem State.notifyRelease_result : (s.notifyRelease).result = s.result := rfl
@[simp] theorem State.notifyRelease_status : (s.notifyRelease).status = s.status := rfl
@[simp] theorem State.notifyRelease_busSel : (s.notifyRelease).busSel = s.busSel := rfl
@[simp] theorem State.notifyRelease_clNcnt : (s.notifyRelease).clNcnt = s.clNcnt := rfl
@[simp] theorem State.notifyRelease_clTmo : (s.notifyRelease).clTmo = s.cfg.hdrTimeout := rfl
@[simp] theorem State.notifyRelease_clPrev : (s.notifyRelease).clPrev = true := rfl
@[simp] theorem State.notifyRelease_clEdge : (s.notifyRelease).clEdge = 0 := rfl
@[simp] theorem State.notifyRelease_clByte : (s.notifyRelease).clByte = s.clByte := rfl
@[simp] theorem State.notifyRelease_clBit : (s.notifyRelease).clBit = s.clBit := rfl
@[simp] theorem State.notifyRelease_clCur : (s.notifyRelease).clCur = s.clCur := rfl
@[simp] theorem State.notifyRelease_eeAddr : (s.notifyRelease).eeAddr = s.eeAddr := rfl
@[simp] theorem State.notifyRelease_eeMism : (s.notifyRelease).eeMism = s.eeMism := rfl
@[simp] theorem State.notifyRelease_eeMaddr : (s.notifyRelease).eeMaddr = s.eeMaddr := rfl
@[simp] theorem State.notifyRelease_sda : (s.notifyRelease).sda = s.sda := rfl
@[simp] theorem State.notifyRelease_notifyN : (s.notifyRelease).notifyN = true := rfl
@[simp] theorem State.notifyRelease_irqLock : (s.notifyRelease).irqLock = s.irqLock := rfl
@[simp] theorem State.notifyRelease_busPin : (s.notifyRelease).busPin = s.busPin := rfl
@[simp] theorem State.notifyRelease_ee : (s.notifyRelease).ee = s.ee := rfl
@[simp] theorem State.notifyRelease_host : (s.notifyRelease).host = s.host := rfl
@[simp] theorem State.notifyRelease_cfg : (s.notifyRelease).cfg = s.cfg := rfl
@[simp] theorem State.notifyRelease_cmdIn : (s.notifyRelease).cmdIn = s.cmdIn := rfl
@[simp] theorem State.notifyRelease_clkIn : (s.notifyRelease).clkIn = s.clkIn := rfl
@[simp] theorem State.notifyRelease_probeIn : (s.notifyRelease).probeIn = s.probeIn := rfl
@[simp] theorem State.notifyRelease_readErrIn : (s.notifyRelease).readErrIn = s.readErrIn := rfl
@[simp] theorem State.notifyRelease_envIdx : (s.notifyRelease).envIdx = s.envIdx := rfl
@[simp] theorem State.notifyRelease_restartIn : (s.notifyRelease).restartIn = s.restartIn := rfl
@[simp] theorem State.notifyRelease_trace : (s.notifyRelease).trace = s.trace := rfl

@[simp] theorem State.sampled_img : (s.sampled).img = s.img := rfl
@[simp] theorem State.sampled_imgValid : (s.sampled).imgValid = s.imgValid := rfl
@[simp] theorem State.sampled_sel : (s.sampled).sel = s.sel := rfl
@[simp] theorem State.sampled_op : (s.sampled).op = s.op := rfl
@[simp] theorem State.sampled_result : (s.sampled).result = s.result := rfl
@[simp] theorem State.sampled_status : (s.sampled).status = s.status := rfl
@[simp] theorem State.sampled_busSel : (s.sampled).busSel = s.busSel := rfl
@[simp] theorem State.sampled_clNcnt : (s.sampled).clNcnt = s.clNcnt := rfl
@[simp] theorem State.sampled_clTmo : (s.sampled).clTmo = s.clTmo - 1 := rfl
@[simp] theorem State.sampled_clPrev : (s.sampled).clPrev = s.clkLevel := rfl
@[simp] theorem State.sampled_clEdge : (s.sampled).clEdge = s.clEdge := rfl
@[simp] theorem State.sampled_clByte : (s.sampled).clByte = s.clByte := rfl
@[simp] theorem State.sampled_clBit : (s.sampled).clBit = s.clBit := rfl
@[simp] theorem State.sampled_clCur : (s.sampled).clCur = s.clCur := rfl
@[simp] theorem State.sampled_eeAddr : (s.sampled).eeAddr = s.eeAddr := rfl
@[simp] theorem State.sampled_eeMism : (s.sampled).eeMism = s.eeMism := rfl
@[simp] theorem State.sampled_eeMaddr : (s.sampled).eeMaddr = s.eeMaddr := rfl
@[simp] theorem State.sampled_sda : (s.sampled).sda = s.sda := rfl
@[simp] theorem State.sampled_notifyN : (s.sampled).notifyN = s.notifyN := rfl
@[simp] theorem State.sampled_irqLock : (s.sampled).irqLock = s.irqLock := rfl
@[simp] theorem State.sampled_busPin : (s.sampled).busPin = s.busPin := rfl
@[simp] theorem State.sampled_ee : (s.sampled).ee = s.ee := rfl
@[simp] theorem State.sampled_host : (s.sampled).host = s.host := rfl
@[simp] theorem State.sampled_cfg : (s.sampled).cfg = s.cfg := rfl
@[simp] theorem State.sampled_cmdIn : (s.sampled).cmdIn = s.cmdIn := rfl
@[simp] theorem State.sampled_clkIn : (s.sampled).clkIn = s.clkIn.tail := rfl
@[simp] theorem State.sampled_probeIn : (s.sampled).probeIn = s.probeIn := rfl
@[simp] theorem State.sampled_readErrIn : (s.sampled).readErrIn = s.readErrIn := rfl
@[simp] theorem State.sampled_envIdx : (s.sampled).envIdx = if s.clkIn = [] then s.envIdx + 1 else s.envIdx := rfl
@[simp] theorem State.sampled_restartIn : (s.sampled).restartIn = s.restartIn := rfl
@[simp] theorem State.sampled_trace : (s.sampled).trace = .clkSample s.clkLevel :: .wdtKick :: s.trace := rfl

@[simp] theorem State.drive_img (v : Level) : (s.drive v).img = s.img := rfl
@[simp] theorem State.drive_imgValid (v : Level) : (s.drive v).imgValid = s.imgValid := rfl
@[simp] theorem State.drive_sel (v : Level) : (s.drive v).sel = s.sel := rfl
@[simp] theorem State.drive_op (v : Level) : (s.drive v).op = s.op := rfl
@[simp] theorem State.drive_result (v : Level) : (s.drive v).result = s.result := rfl
@[simp] theorem State.drive_status (v : Level) : (s.drive v).status = s.status := rfl
@[simp] theorem State.drive_busSel (v : Level) : (s.drive v).busSel = s.busSel := rfl
@[simp] theorem State.drive_clNcnt (v : Level) : (s.drive v).clNcnt = s.clNcnt := rfl
@[simp] theorem State.drive_clTmo (v : Level) : (s.drive v).clTmo = s.clTmo := rfl
@[simp] theorem State.drive_clPrev (v : Level) : (s.drive v).clPrev = s.clPrev := rfl
@[simp] theorem State.drive_clEdge (v : Level) : (s.drive v).clEdge = s.clEdge := rfl
@[simp] theorem State.drive_clByte (v : Level) : (s.drive v).clByte = s.clByte := rfl
@[simp] theorem State.drive_clBit (v : Level) : (s.drive v).clBit = s.clBit := rfl
@[simp] theorem State.drive_clCur (v : Level) : (s.drive v).clCur = s.clCur := rfl
@[simp] theorem State.drive_eeAddr (v : Level) : (s.drive v).eeAddr = s.eeAddr := rfl
@[simp] theorem State.drive_eeMism (v : Level) : (s.drive v).eeMism = s.eeMism := rfl
@[simp] theorem State.drive_eeMaddr (v : Level) : (s.drive v).eeMaddr = s.eeMaddr := rfl
@[simp] theorem State.drive_sda (v : Level) : (s.drive v).sda = v := rfl
@[simp] theorem State.drive_notifyN (v : Level) : (s.drive v).notifyN = s.notifyN := rfl
@[simp] theorem State.drive_irqLock (v : Level) : (s.drive v).irqLock = s.irqLock := rfl
@[simp] theorem State.drive_busPin (v : Level) : (s.drive v).busPin = s.busPin := rfl
@[simp] theorem State.drive_ee (v : Level) : (s.drive v).ee = s.ee := rfl
@[simp] theorem State.drive_host (v : Level) : (s.drive v).host = s.host := rfl
@[simp] theorem State.drive_cfg (v : Level) : (s.drive v).cfg = s.cfg := rfl
@[simp] theorem State.drive_cmdIn (v : Level) : (s.drive v).cmdIn = s.cmdIn := rfl
@[simp] theorem State.drive_clkIn (v : Level) : (s.drive v).clkIn = s.clkIn := rfl
@[simp] theorem State.drive_probeIn (v : Level) : (s.drive v).probeIn = s.probeIn := rfl
@[simp] theorem State.drive_readErrIn (v : Level) : (s.drive v).readErrIn = s.readErrIn := rfl
@[simp] theorem State.drive_envIdx (v : Level) : (s.drive v).envIdx = s.envIdx := rfl
@[simp] theorem State.drive_restartIn (v : Level) : (s.drive v).restartIn = s.restartIn := rfl
@[simp] theorem State.drive_trace (v : Level) : (s.drive v).trace = .tx v :: s.trace := rfl

@[simp] theorem State.enterData_img : (s.enterData).img = s.img := rfl
@[simp] theorem State.enterData_imgValid : (s.enterData).imgValid = s.imgValid := rfl
@[simp] theorem State.enterData_sel : (s.enterData).sel = s.sel := rfl
@[simp] theorem State.enterData_op : (s.enterData).op = .xferData := rfl
@[simp] theorem State.enterData_result : (s.enterData).result = s.result := rfl
@[simp] theorem State.enterData_status : (s.enterData).status = s.status := rfl
@[simp] theorem State.enterData_busSel : (s.enterData).busSel = s.busSel := rfl
@[simp] theorem State.enterData_clNcnt : (s.enterData).clNcnt = s.clNcnt := rfl
@[simp] theorem State.enterData_clTmo : (s.enterData).clTmo = s.cfg.dataTimeout := rfl
@[simp] theorem State.enterData_clPrev : (s.enterData).clPrev = s.clPrev := rfl
@[simp] theorem State.enterData_clEdge : (s.enterData).clEdge = s.clEdge := rfl
@[simp] theorem State.enterData_clByte : (s.enterData).clByte = 0 := rfl
@[simp] theorem State.enterData_clBit : (s.enterData).clBit = 0 := rfl
@[simp] theorem State.enterData_clCur : (s.enterData).clCur = s.fetchByte 0 := rfl
@[simp] theorem State.enterData_eeAddr : (s.enterData).eeAddr = s.eeAddr := rfl
@[simp] theorem State.enterData_eeMism : (s.enterData).eeMism = s.eeMism := rfl
@[simp] theorem State.enterData_eeMaddr : (s.enterData).eeMaddr = s.eeMaddr := rfl
@[simp] theorem State.enterData_sda : (s.enterData).sda = s.sda := rfl
@[simp] theorem State.enterData_notifyN : (s.enterData).notifyN = s.notifyN := rfl
@[simp] theorem State.enterData_irqLock : (s.enterData).irqLock = s.irqLock := rfl
@[simp] theorem State.enterData_busPin : (s.enterData).busPin = s.busPin := rfl
@[simp] theorem State.enterData_ee : (s.enterData).ee = s.ee := rfl
@[simp] theorem State.enterData_host : (s.enterData).host = s.host := rfl
@[simp] theorem State.enterData_cfg : (s.enterData).cfg = s.cfg := rfl
@[simp] theorem State.enterData_cmdIn : (s.enterData).cmdIn = s.cmdIn := rfl
@[simp] theorem State.enterData_clkIn : (s.enterData).clkIn = s.clkIn := rfl
@[simp] theorem State.enterData_probeIn : (s.enterData).probeIn = s.probeIn := rfl
@[simp] theorem State.enterData_readErrIn : (s.enterData).readErrIn = s.readErrIn := rfl
@[simp] theorem State.enterData_envIdx : (s.enterData).envIdx = s.envIdx := rfl
@[simp] theorem State.enterData_restartIn : (s.enterData).restartIn = s.restartIn := rfl
@[simp] theorem State.enterData_trace : (s.enterData).trace = s.trace := rfl

@[simp] theorem State.finish_img : (s.finish).img = s.img := rfl
@[simp] theorem State.finish_imgValid : (s.finish).imgValid = s.imgValid := rfl
@[simp] theorem State.finish_sel : (s.finish).sel = s.sel := rfl
@[simp] theorem State.finish_op : (s.finish).op = .idle := rfl
@[simp] theorem State.finish_result : (s.finish).result = true := rfl
@[simp] theorem State.finish_status : (s.finish).status = .ok := rfl
@[simp] theorem State.finish_busSel : (s.finish).busSel = s.busSel := rfl
@[simp] theorem State.finish_clNcnt : (s.finish).clNcnt = s.clNcnt := rfl
@[simp] theorem State.finish_clTmo : (s.finish).clTmo = s.clTmo := rfl
@[simp] theorem State.finish_clPrev : (s.finish).clPrev = s.clPrev := rfl
@[simp] theorem State.finish_clEdge : (s.finish).clEdge = s.clEdge := rfl
@[simp] theorem State.finish_clByte : (s.finish).clByte = s.clByte := rfl
@[simp] theorem State.finish_clBit : (s.finish).clBit = s.clBit := rfl
@[simp] theorem State.finish_clCur : (s.finish).clCur = s.clCur := rfl
@[simp] theorem State.finish_eeAddr : (s.finish).eeAddr = s.eeAddr := rfl
@[simp] theorem State.finish_eeMism : (s.finish).eeMism = s.eeMism := rfl
@[simp] theorem State.finish_eeMaddr : (s.finish).eeMaddr = s.eeMaddr := rfl
@[simp] theorem State.finish_sda : (s.finish).sda = s.sda := rfl
@[simp] theorem State.finish_notifyN : (s.finish).notifyN = s.notifyN := rfl
@[simp] theorem State.finish_irqLock : (s.finish).irqLock = false := rfl
@[simp] theorem State.finish_busPin : (s.finish).busPin = s.busPin := rfl
@[simp] theorem State.finish_ee : (s.finish).ee = s.ee := rfl
@[simp] theorem State.finish_host : (s.finish).host = s.host := rfl
@[simp] theorem State.finish_cfg : (s.finish).cfg = s.cfg := rfl
@[simp] theorem State.finish_cmdIn : (s.finish).cmdIn = s.cmdIn := rfl
@[simp] theorem State.finish_clkIn : (s.finish).clkIn = s.clkIn := rfl
@[simp] theorem State.finish_probeIn : (s.finish).probeIn = s.probeIn := rfl
@[simp] theorem State.finish_readErrIn : (s.finish).readErrIn = s.readErrIn := rfl
@[simp] theorem State.finish_envIdx : (s.finish).envIdx = s.envIdx := rfl
@[simp] theorem State.finish_restartIn : (s.finish).restartIn = s.restartIn := rfl
@[simp] theorem State.finish_trace : (s.finish).trace = s.trace := rfl

@[simp] theorem State.loadFirmware_img (path : Path) : (s.loadFirmware path).2.img = s.img := rfl
@[simp] theorem State.loadFirmware_imgValid (path : Path) : (s.loadFirmware path).2.imgValid = s.imgValid := rfl
@[simp] theorem State.loadFirmware_sel (path : Path) : (s.loadFirmware path).2.sel = s.sel := rfl
@[simp] theorem State.loadFirmware_op (path : Path) : (s.loadFirmware path).2.op = s.op := rfl
@[simp] theorem State.loadFirmware_result (path : Path) : (s.loadFirmware path).2.result = s.result := rfl
@[simp] theorem State.loadFirmware_status (path : Path) : (s.loadFirmware path).2.status = s.status := rfl
@[simp] theorem State.loadFirmware_busSel (path : Path) : (s.loadFirmware path).2.busSel = s.busSel := rfl
@[simp] theorem State.loadFirmware_clNcnt (path : Path) : (s.loadFirmware path).2.clNcnt = s.clNcnt := rfl
@[simp] theorem State.loadFirmware_clTmo (path : Path) : (s.loadFirmware path).2.clTmo = s.clTmo := rfl
@[simp] theorem State.loadFirmware_clPrev (path : Path) : (s.loadFirmware path).2.clPrev = s.clPrev := rfl
@[simp] theorem State.loadFirmware_clEdge (path : Path) : (s.loadFirmware path).2.clEdge = s.clEdge := rfl
@[simp] theorem State.loadFirmware_clByte (path : Path) : (s.loadFirmware path).2.clByte = s.clByte := rfl
@[simp] theorem State.loadFirmware_clBit (path : Path) : (s.loadFirmware path).2.clBit = s.clBit := rfl
@[simp] theorem State.loadFirmware_clCur (path : Path) : (s.loadFirmware path).2.clCur = s.clCur := rfl
@[simp] theorem State.loadFirmware_eeAddr (path : Path) : (s.loadFirmware path).2.eeAddr = s.eeAddr := rfl
@[simp] theorem State.loadFirmware_eeMism (path : Path) : (s.loadFirmware path).2.eeMism = s.eeMism := rfl
@[simp] theorem State.loadFirmware_eeMaddr (path : Path) : (s.loadFirmware path).2.eeMaddr = s.eeMaddr := rfl
@[simp] theorem State.loadFirmware_sda (path : Path) : (s.loadFirmware path).2.sda = s.sda := rfl
@[simp] theorem State.loadFirmware_notifyN (path : Path) : (s.loadFirmware path).2.notifyN = s.notifyN := rfl
@[simp] theorem State.loadFirmware_irqLock (path : Path) : (s.loadFirmware path).2.irqLock = s.irqLock := rfl
@[simp] theorem State.loadFirmware_busPin (path : Path) : (s.loadFirmware path).2.busPin = s.busPin := rfl
@[simp] theorem State.loadFirmware_ee (path : Path) : (s.loadFirmware path).2.ee = s.ee := rfl
@[simp] theorem State.loadFirmware_host (path : Path) : (s.loadFirmware path).2.host = (s.host.load false path).2 := rfl
@[simp] theorem State.loadFirmware_cfg (path : Path) : (s.loadFirmware path).2.cfg = s.cfg := rfl
@[simp] theorem State.loadFirmware_cmdIn (path : Path) :
    (s.loadFirmware path).2.cmdIn = s.cmdIn ++ (s.host.load false path).1.requests := rfl
@[simp] theorem State.loadFirmware_clkIn (path : Path) : (s.loadFirmware path).2.clkIn = s.clkIn := rfl
@[simp] theorem State.loadFirmware_probeIn (path : Path) : (s.loadFirmware path).2.probeIn = s.probeIn := rfl
@[simp] theorem State.loadFirmware_readErrIn (path : Path) : (s.loadFirmware path).2.readErrIn = s.readErrIn := rfl
@[simp] theorem State.loadFirmware_envIdx (path : Path) : (s.loadFirmware path).2.envIdx = s.envIdx := rfl
@[simp] theorem State.loadFirmware_restartIn (path : Path) : (s.loadFirmware path).2.restartIn = s.restartIn := rfl
@[simp] theorem State.loadFirmware_trace (path : Path) : (s.loadFirmware path).2.trace = s.trace := rfl

@[simp] theorem State.restart_img : (s.restart).img = [] := rfl
@[simp] theorem State.restart_imgValid : (s.restart).imgValid = false := rfl
@[simp] theorem State.restart_sel : (s.restart).sel = 0 := rfl
@[simp] theorem State.restart_op : (s.restart).op = .idle := rfl
@[simp] theorem State.restart_result : (s.restart).result = false := rfl
@[simp] theorem State.restart_status : (s.restart).status = .ok := rfl
@[simp] theorem State.restart_busSel : (s.restart).busSel = .onboard := rfl
@[simp] theorem State.restart_clNcnt : (s.restart).clNcnt = 0 := rfl
@[simp] theorem State.restart_clTmo : (s.restart).clTmo = 0 := rfl
@[simp] theorem State.restart_clPrev : (s.restart).clPrev = true := rfl
@[simp] theorem State.restart_clEdge : (s.restart).clEdge = 0 := rfl
@[simp] theorem State.restart_clByte : (s.restart).clByte = 0 := rfl
@[simp] theorem State.restart_clBit : (s.restart).clBit = 0 := rfl
@[simp] theorem State.restart_clCur : (s.restart).clCur = 0 := rfl
@[simp] theorem State.restart_eeAddr : (s.restart).eeAddr = 0 := rfl
@[simp] theorem State.restart_eeMism : (s.restart).eeMism = 0 := rfl
@[simp] theorem State.restart_eeMaddr : (s.restart).eeMaddr = 0 := rfl
@[simp] theorem State.restart_sda : (s.restart).sda = true := rfl
@[simp] theorem State.restart_notifyN : (s.restart).notifyN = true := rfl
@[simp] theorem State.restart_irqLock : (s.restart).irqLock = false := rfl
@[simp] theorem State.restart_busPin : (s.restart).busPin = s.cfg.busPins .onboard := rfl
@[simp] theorem State.restart_ee : (s.restart).ee = s.ee := rfl
@[simp] theorem State.restart_host : (s.restart).host = s.host.start.2 := rfl
@[simp] theorem State.restart_cfg : (s.restart).cfg = s.cfg := rfl
@[simp] theorem State.restart_cmdIn : (s.restart).cmdIn = s.host.start.1 ++ s.cmdIn := rfl
@[simp] theorem State.restart_clkIn : (s.restart).clkIn = s.clkIn := rfl
@[simp] theorem State.restart_probeIn : (s.restart).probeIn = s.probeIn := rfl
@[simp] theorem State.restart_readErrIn : (s.restart).readErrIn = s.readErrIn := rfl
@[simp] theorem State.restart_envIdx : (s.restart).envIdx = s.envIdx := rfl
@[simp] theorem State.restart_restartIn : (s.restart).restartIn = false := rfl
@[simp] theorem State.restart_trace : (s.restart).trace = s.trace := rfl

end

end Sys2Proof.Machine
end

