-- ==== Sys2Proof/Laws/Ops.lean ====
section
/-! SUPPORT. For each shared operation, once, everything it can do. -/

namespace Sys2Proof.Machine

/-! The parameters and the chunk list -/

theorem params_wf_iff {p : Params} :
    p.wf = true ↔ 1 ≤ p.notifyIter ∧ 1 ≤ p.wdtNotifyPeriod ∧ 1 ≤ p.hdrTimeout ∧ 1 ≤ p.dataTimeout ∧ 1 ≤ p.eePage ∧
      1 ≤ p.eeCap := by
  simp [Params.wf, and_assoc]

theorem params_atLeastOne_wf (p : Params) : p.atLeastOne.wf = true := by
  rw [params_wf_iff]
  refine ⟨?_, ?_, ?_, ?_, ?_, ?_⟩ <;> exact Nat.le_max_left 1 _

/-- The constraints of R9 hold of the machine's parameters. -/
theorem config_params_wf : Config.params.wf = true := params_atLeastOne_wf _

theorem limit_le_image (p : Params) : limit p ≤ 4096 := Nat.min_le_left _ _

theorem limit_le_cap (p : Params) : limit p ≤ p.eeCap := Nat.min_le_right _ _

theorem limit_eq (p : Params) : limit p = min 4096 p.eeCap := rfl

theorem chunkLen_eq (p : Params) (a : Nat) : chunkLen p a = min p.eePage (limit p - a) := rfl

theorem chunkDefined_iff {p : Params} {a : Nat} : chunkDefined p a = true ↔ a < limit p ∧ a % p.eePage = 0 := by
  simp [chunkDefined]

@[simp] theorem imageChunk_length (s : State) (a : Nat) : (s.imageChunk a).length = chunkLen s.cfg a := by
  simp [State.imageChunk, Memory.readBytes]

@[simp] theorem readAnswer_length (s : State) (a n : Nat) : (s.readAnswer a n).length = n := by
  simp [State.readAnswer]

/-! The command port -/

/-- A command answers a next state only when OP = IDLE (R44). -/
theorem whenIdle_next {s t : State} {o : Outcome} : s.whenIdle o = .next t ↔ s.op = .idle ∧ o = .next t := by
  unfold State.whenIdle
  split <;> simp [*]

theorem whenIdle_of_idle {s : State} (h : s.op = .idle) (o : Outcome) : s.whenIdle o = o := if_pos h

theorem whenIdle_of_busy {s : State} (h : s.op ≠ .idle) (o : Outcome) : s.whenIdle o = .fault .portBusy := if_neg h

/-- The select step (R124): an invalid index, no image, or the continuation on the selected slot. -/
theorem selectStep_cases (s : State) (n : BitVec 4) (k : State → State) :
    (7 < n.toNat ∧ s.selectStep n k = s.raise .invalidIndex (some n.toNat)) ∨
      (n.toNat ≤ 7 ∧ s.imgValid = false ∧ s.selectStep n k = s.raise .noImage none) ∨
      (n.toNat ≤ 7 ∧ s.imgValid = true ∧ s.selectStep n k = k { s with sel := indexSel n }) := by
  unfold State.selectStep indexValid
  by_cases h : n.toNat ≤ 7
  · cases hv : s.imgValid <;> simp [h]
  · left
    simp [h]
    omega

/-! The notify wait -/

/-- A notify-wait iteration counts down and may service the watchdog (R142). -/
theorem notifyWait_cases (s : State) :
    (kickDue s.cfg s.clNcnt = true ∧ s.notifyWait = { s with clNcnt := s.clNcnt - 1, trace := .wdtKick :: s.trace }) ∨
      (kickDue s.cfg s.clNcnt = false ∧ s.notifyWait = { s with clNcnt := s.clNcnt - 1 }) := by
  unfold State.notifyWait
  split
  · left
    exact ⟨‹_›, rfl⟩
  · right
    exact ⟨Bool.eq_false_iff.mpr ‹_›, rfl⟩

/-! The polling iteration -/

theorem fallingEdge_iff {p c : Level} : fallingEdge p c = true ↔ p = true ∧ c = false := by
  simp [fallingEdge]

/-- A polling iteration (R144): the budget is exhausted; or a sample is taken and is no falling edge; or it is one, and
the phase's action runs after the reload. -/
theorem poll_cases (s : State) (b : Nat) (edge : State → State) :
    (s.clTmo = 0 ∧ s.poll b edge = s.raise .transferTimeout none) ∨
      (0 < s.clTmo ∧ ¬(s.clPrev = true ∧ s.clkLevel = false) ∧ s.poll b edge = s.sampled) ∨
      (0 < s.clTmo ∧ s.clPrev = true ∧ s.clkLevel = false ∧ s.poll b edge = edge (s.sampled.reload b)) := by
  unfold State.poll
  by_cases h : s.clTmo = 0
  · left
    simp [h]
  · right
    by_cases hf : fallingEdge s.clPrev s.clkLevel = true
    · right
      rw [if_neg h, if_pos hf]
      rw [fallingEdge_iff] at hf
      exact ⟨by omega, hf.1, hf.2, rfl⟩
    · left
      rw [if_neg h, if_neg hf]
      rw [fallingEdge_iff] at hf
      exact ⟨by omega, hf, rfl⟩

/-- The reload writes CL_TMO alone. -/
theorem reload_eq (s : State) (b : Nat) :
    s.reload b = { s with clTmo := if s.cfg.tmoPerEdge then b else s.clTmo } := by
  unfold State.reload
  split <;> rfl

/-- HeaderEdge (R147): an edge before the 37th, or the 37th, which enters the data phase. -/
theorem headerEdge_cases (s : State) :
    (s.clEdge.toNat ≠ 36 ∧ s.headerEdge =
      { s with clEdge := BitVec.ofNat 6 (s.clEdge.toNat + 1) }.drive (headerLevel (s.clEdge.toNat + 1))) ∨
      (s.clEdge.toNat = 36 ∧ s.headerEdge = ({ s with clEdge := 37 }.drive true).enterData) := by
  unfold State.headerEdge
  by_cases h : s.clEdge.toNat = 36
  · right
    refine ⟨h, ?_⟩
    simp only [h]
    rfl
  · left
    refine ⟨h, ?_⟩
    simp only
    rw [if_neg (by omega)]

/-- DataEdge (R150): a bit of the byte, or the gap. -/
theorem dataEdge_cases (d : Byte) (s : State) :
    (s.clBit.toNat < 8 ∧ s.dataEdge d =
      { s with clBit := BitVec.ofNat 4 (s.clBit.toNat + 1) }.drive (d.getLsbD (7 - s.clBit.toNat))) ∨
      (8 ≤ s.clBit.toNat ∧ s.dataEdge d = s.gapEdge) := by
  unfold State.dataEdge cellLevel
  by_cases h : s.clBit.toNat < 8
  · left
    refine ⟨h, ?_⟩
    have e : 8 - (s.clBit.toNat + 1) = 7 - s.clBit.toNat := by omega
    have h' : s.clBit.toNat + 1 ≤ 8 := h
    simp only [h', if_true, e]
  · right
    refine ⟨by omega, ?_⟩
    have h' : ¬s.clBit.toNat + 1 ≤ 8 := h
    simp only [h', if_false]

/-- GapEdge (R151): the next byte is fetched, or the transfer is finished. -/
theorem gapEdge_cases (s : State) :
    (s.clByte.toNat < 511 ∧ s.gapEdge =
      { { s with clBit := 0, clByte := BitVec.ofNat 10 (s.clByte.toNat + 1) }.drive true with
        clCur := s.fetchByte (s.clByte.toNat + 1) }) ∨
      (511 ≤ s.clByte.toNat ∧ s.gapEdge =
        ({ s with clBit := 0, clByte := BitVec.ofNat 10 (s.clByte.toNat + 1) }.drive true).finish) := by
  unfold State.gapEdge
  by_cases h : s.clByte.toNat < 511
  · left
    refine ⟨h, ?_⟩
    have h' : s.clByte.toNat + 1 < 512 := by omega
    simp only [h', if_true]
    rfl
  · right
    refine ⟨by omega, ?_⟩
    have h' : ¬s.clByte.toNat + 1 < 512 := by omega
    simp only [h', if_false]

/-! The burn -/

/-- A probe step (R182). -/
theorem probe_cases (s : State) :
    (s.probeAnswer = true ∧ s.probe = { s.takeProbe with status := .ok, eeAddr := 0, op := .eeWrite }) ∨
      (s.probeAnswer = false ∧ s.probe = { s.takeProbe with status := .deviceNotPresent }) := by
  unfold State.probe
  cases s.probeAnswer <;> simp

/-- A write step (R186): the last chunk, or one before it. -/
theorem writeChunk_cases (s : State) :
    (s.eeAddr.toNat + chunkLen s.cfg s.eeAddr.toNat = limit s.cfg ∧ s.writeChunk =
      { s.eeWrite s.eeAddr.toNat (s.imageChunk s.eeAddr.toNat) with
        eeAddr := 0, eeMism := 0, eeMaddr := 0, op := .eeVerify }) ∨
      (s.eeAddr.toNat + chunkLen s.cfg s.eeAddr.toNat ≠ limit s.cfg ∧ s.writeChunk =
        { s.eeWrite s.eeAddr.toNat (s.imageChunk s.eeAddr.toNat) with
          eeAddr := BitVec.ofNat 13 (s.eeAddr.toNat + chunkLen s.cfg s.eeAddr.toNat) }) := by
  unfold State.writeChunk
  by_cases h : s.eeAddr.toNat + chunkLen s.cfg s.eeAddr.toNat = limit s.cfg <;> simp [h]

/-- One byte that differs (R187): the first mismatch is recorded and reported, any other aborts. -/
theorem mismatch_cases (s : State) (a : Nat) (e r : Byte) :
    (s.eeMism = 0 ∧ s.mismatch a e r =
      ({ s with eeMism := 1, eeMaddr := BitVec.ofNat 12 a, trace := .firstMismatch a e r :: s.trace }, false)) ∨
      (s.eeMism ≠ 0 ∧ s.mismatch a e r =
        ({ s with eeMism := s.eeMism + 1 }.raise .verifyMismatch (some a), true)) := by
  unfold State.mismatch
  by_cases h : s.eeMism = 0
  · left
    refine ⟨h, ?_⟩
    simp [h, State.emit]
  · right
    refine ⟨h, ?_⟩
    have h' : ¬s.eeMism + 1 = 1 := by
      intro e
      apply h
      bv_omega
    simp only [if_neg h']

@[simp] theorem compare_nil (s : State) (a : Nat) : s.compare a [] = (s, false) := rfl

/-- Equal bytes are passed over (R187). -/
theorem compare_cons_eq (s : State) (a : Nat) (e : Byte) (rest : List (Byte × Byte)) :
    s.compare a ((e, e) :: rest) = s.compare (a + 1) rest := by
  simp [State.compare]

/-- The first mismatch of a burn is tolerated and the comparison goes on (R187). -/
theorem compare_cons_first {s : State} {a : Nat} {e r : Byte} (rest : List (Byte × Byte)) (h : r ≠ e)
    (hm : s.eeMism = 0) :
    s.compare a ((e, r) :: rest) =
      State.compare { s with eeMism := 1, eeMaddr := BitVec.ofNat 12 a, trace := .firstMismatch a e r :: s.trace }
        (a + 1) rest := by
  rw [State.compare, if_neg h]
  rcases mismatch_cases s a e r with ⟨_, hq⟩ | ⟨h0, _⟩
  · rw [hq]
  · exact absurd hm h0

/-- A further mismatch aborts and nothing more is compared (R187). -/
theorem compare_cons_second {s : State} {a : Nat} {e r : Byte} (rest : List (Byte × Byte)) (h : r ≠ e)
    (hm : s.eeMism ≠ 0) :
    s.compare a ((e, r) :: rest) = ({ s with eeMism := s.eeMism + 1 }.raise .verifyMismatch (some a), true) := by
  rw [State.compare, if_neg h]
  rcases mismatch_cases s a e r with ⟨h0, _⟩ | ⟨_, hq⟩
  · exact absurd h0 hm
  · rw [hq]

/-- What a comparison can change (R187): EE_MISM, EE_MADDR and the reports, and, when it aborts, what `raise` changes. -/
theorem compare_shape (s : State) (a : Nat) (ps : List (Byte × Byte)) :
    ∃ m d new, (∀ e ∈ new, ∃ x y z, e = .firstMismatch x y z) ∧
      ((s.compare a ps = ({ s with eeMism := m, eeMaddr := d, trace := new ++ s.trace }, false) ∧
          (s.eeMism.toNat ≤ 1 → m.toNat ≤ 1)) ∨
        ∃ x, s.compare a ps =
            (State.raise { s with eeMism := m, eeMaddr := d, trace := new ++ s.trace } .verifyMismatch (some x), true) ∧
          (s.eeMism.toNat ≤ 1 → m = 2)) := by
  induction ps generalizing s a with
  | nil => exact ⟨s.eeMism, s.eeMaddr, [], by simp, .inl ⟨rfl, id⟩⟩
  | cons p ps ih =>
    obtain ⟨e, r⟩ := p
    by_cases h : r = e
    · subst h
      rw [compare_cons_eq]
      exact ih s (a + 1)
    · by_cases hm : s.eeMism = 0
      · rw [compare_cons_first ps h hm]
        obtain ⟨m, d, new, hn, hc⟩ :=
          ih { s with eeMism := 1, eeMaddr := BitVec.ofNat 12 a, trace := .firstMismatch a e r :: s.trace } (a + 1)
        refine ⟨m, d, new ++ [.firstMismatch a e r], ?_, ?_⟩
        · intro x hx
          rcases List.mem_append.mp hx with hx | hx
          · exact hn x hx
          · exact ⟨a, e, r, by simpa using hx⟩
        · rcases hc with ⟨hc, hb⟩ | ⟨x, hc, hb⟩
          · left
            rw [hc]
            exact ⟨by simp, fun _ => hb (show (1 : BitVec 2).toNat ≤ 1 by decide)⟩
          · right
            refine ⟨x, ?_, fun _ => hb (show (1 : BitVec 2).toNat ≤ 1 by decide)⟩
            rw [hc]
            simp
      · rw [compare_cons_second ps h hm]
        refine ⟨s.eeMism + 1, s.eeMaddr, [], by simp, .inr ⟨a, rfl, fun hb => ?_⟩⟩
        bv_omega

/-- A verify step (R187): the comparison goes through and the verification advances, or the second mismatch aborts it. -/
theorem verifyChunk_cases (s : State) :
    ∃ m d new, (∀ e ∈ new, ∃ x y z, e = .firstMismatch x y z) ∧
      ((s.verifyChunk = State.verifyAdvance
            { s.takeRead s.eeAddr.toNat (chunkLen s.cfg s.eeAddr.toNat) with
              eeMism := m
              eeMaddr := d
              trace := new ++ (s.takeRead s.eeAddr.toNat (chunkLen s.cfg s.eeAddr.toNat)).trace }
            (s.eeAddr.toNat + chunkLen s.cfg s.eeAddr.toNat) ∧
          (s.eeMism.toNat ≤ 1 → m.toNat ≤ 1)) ∨
        ∃ x, s.verifyChunk = State.raise
            { s.takeRead s.eeAddr.toNat (chunkLen s.cfg s.eeAddr.toNat) with
              eeMism := m
              eeMaddr := d
              trace := new ++ (s.takeRead s.eeAddr.toNat (chunkLen s.cfg s.eeAddr.toNat)).trace }
            .verifyMismatch (some x) ∧
          (s.eeMism.toNat ≤ 1 → m = 2)) := by
  unfold State.verifyChunk
  obtain ⟨m, d, new, hn, hc⟩ := compare_shape (s.takeRead s.eeAddr.toNat (chunkLen s.cfg s.eeAddr.toNat))
    s.eeAddr.toNat ((s.imageChunk s.eeAddr.toNat).zip (s.readAnswer s.eeAddr.toNat (chunkLen s.cfg s.eeAddr.toNat)))
  refine ⟨m, d, new, hn, ?_⟩
  rcases hc with ⟨hc, hb⟩ | ⟨x, hc, hb⟩
  · left
    refine ⟨?_, hb⟩
    simp only [hc]
  · right
    refine ⟨x, ?_, hb⟩
    simp only [hc]

/-- The end of a verify chunk (R187): at LIMIT the burn is done, before it the next chunk follows. -/
theorem verifyAdvance_eq (s : State) (a' : Nat) :
    s.verifyAdvance a' = { s with
      eeAddr := BitVec.ofNat 13 a'
      op := if a' = limit s.cfg then .idle else s.op
      result := if a' = limit s.cfg then true else s.result
      status := if a' = limit s.cfg then .ok else s.status } := by
  unfold State.verifyAdvance
  by_cases h : a' = limit s.cfg <;> simp [h, State.complete]

end Sys2Proof.Machine
end

