-- ==== Sys2Proof/Laws/PerInstr.lean ====
section
/-! SUPPORT. Per instruction: no other instruction has its code, so that an encoding drops no field. -/

namespace Sys2Proof.Laws

/-- The code of `i` is the code of `i` alone. -/
def EncodeInjective.Statement (i : Instr) : Prop := ∀ j : Instr, encode j = encode i → j = i

theorem EncodeInjective.select (n : BitVec 4) : EncodeInjective.Statement (.select n) := by
  intro j h
  cases j with
  | select m =>
    simp only [encode, Code.command.injEq, Request.mk.injEq, commandWord, and_true] at h
    congr 1
    revert h
    revert n m
    decide
  | burn => revert n; decide
  | toggleBus => revert n; decide
  | replaceImage img =>
    simp only [encode, Code.command.injEq, Request.mk.injEq, commandWord] at h
    exact absurd h.1 (by clear h; revert n; decide)
  | header => simp [encode] at h
  | byteCell d => simp [encode] at h

theorem EncodeInjective.burn : EncodeInjective.Statement .burn := by
  intro j h
  cases j with
  | select n => revert n; decide
  | burn => rfl
  | toggleBus => revert h; decide
  | replaceImage img => simp [encode] at h
  | header => simp [encode] at h
  | byteCell d => simp [encode] at h

theorem EncodeInjective.toggleBus : EncodeInjective.Statement .toggleBus := by
  intro j h
  cases j with
  | select n => revert n; decide
  | burn => revert h; decide
  | toggleBus => rfl
  | replaceImage img => simp [encode] at h
  | header => simp [encode] at h
  | byteCell d => simp [encode] at h

theorem EncodeInjective.replaceImage (img : Memory) : EncodeInjective.Statement (.replaceImage img) := by
  intro j h
  cases j with
  | select n =>
    simp only [encode, Code.command.injEq, Request.mk.injEq, commandWord] at h
    exact absurd h.1 (by clear h; revert n; decide)
  | burn => simp [encode] at h
  | toggleBus => simp [encode] at h
  | replaceImage img' => simpa [encode] using h
  | header => simp [encode] at h
  | byteCell d => simp [encode] at h

theorem EncodeInjective.header : EncodeInjective.Statement .header := by
  intro j h
  cases j with
  | select n => simp [encode] at h
  | burn => simp [encode] at h
  | toggleBus => simp [encode] at h
  | replaceImage img => simp [encode] at h
  | header => rfl
  | byteCell d => simp [encode, cellLevels, headerLevels] at h

theorem EncodeInjective.byteCell (d : Byte) : EncodeInjective.Statement (.byteCell d) := by
  intro j h
  cases j with
  | select n => simp [encode] at h
  | burn => simp [encode] at h
  | toggleBus => simp [encode] at h
  | replaceImage img => simp [encode] at h
  | header => simp [encode, cellLevels, headerLevels] at h
  | byteCell d' =>
    simp only [encode, Code.wire.injEq, cellLevels, List.cons.injEq, and_true] at h
    congr 1
    apply BitVec.eq_of_getLsbD_eq
    intro i hi
    have hi' : i = 0 ∨ i = 1 ∨ i = 2 ∨ i = 3 ∨ i = 4 ∨ i = 5 ∨ i = 6 ∨ i = 7 := by omega
    rcases hi' with rfl | rfl | rfl | rfl | rfl | rfl | rfl | rfl <;>
      simp only [h]

end Sys2Proof.Laws
end

