-- ==== Sys2Proof/Laws/Step.lean ====
section
/-! SUPPORT. What a step can do, said once: the step of each phase, and the inversion of a step that answers a next
state. -/

namespace Sys2Proof.Machine

section
variable {s : State}

theorem step_restart (h : s.restartIn = true) : step s = .next s.restart := by
  simp [step, nextAction, h]

theorem step_no_request (h : s.restartIn = false) (ho : s.op = .idle) (hc : s.cmdIn = []) : step s = .next s := by
  simp [step, nextAction, h, ho, acceptCommand, hc]

theorem step_request {r : Request} {rest : List Request} {i : Instr} (h : s.restartIn = false) (ho : s.op = .idle)
    (hc : s.cmdIn = r :: rest) (hd : decodeCommand r = .ok i) : step s = exec i { s with cmdIn := rest } := by
  simp [step, nextAction, h, ho, acceptCommand, hc, decode, hd]

theorem step_bad_operand {r : Request} {rest : List Request} (h : s.restartIn = false) (ho : s.op = .idle)
    (hc : s.cmdIn = r :: rest) (hd : decodeCommand r = .error .operandShape) : step s = .refused .operandShape := by
  simp [step, nextAction, h, ho, acceptCommand, hc, decode, hd]

theorem step_illegal {r : Request} {rest : List Request} (h : s.restartIn = false) (ho : s.op = .idle)
    (hc : s.cmdIn = r :: rest) (hd : decodeCommand r = .error .badCommand) :
    step s = .next (State.raise { s with cmdIn := rest } .badCommand none) := by
  have ha : acceptCommand s = .internal (.next (State.raise { s with cmdIn := rest } .badCommand none)) := by
    unfold acceptCommand
    rw [hc]
    simp only [decode, hd]
  have hn : nextAction s = acceptCommand s := by
    unfold nextAction
    rw [if_neg (by simp [h]), ho]
  rw [step, hn, ha]

theorem step_notify (h : s.restartIn = false) (ho : s.op = .xferNotify) :
    step s = .next (if s.clNcnt = 0 then s.notifyRelease else s.notifyWait) := by
  simp [step, nextAction, h, ho, notifyStep]

theorem step_header (h : s.restartIn = false) (ho : s.op = .xferHeader) :
    step s = .next (s.poll s.cfg.hdrTimeout State.headerEdge) := by
  simp [step, nextAction, h, ho, exec, execHeader]

theorem step_data (h : s.restartIn = false) (ho : s.op = .xferData) :
    step s = .next (s.poll s.cfg.dataTimeout (State.dataEdge s.clCur)) := by
  simp [step, nextAction, h, ho, exec, execByteCell]

theorem step_probe (h : s.restartIn = false) (ho : s.op = .eeProbe) : step s = .next s.probe := by
  simp [step, nextAction, h, ho, probeStep]

theorem step_write (h : s.restartIn = false) (ho : s.op = .eeWrite) (hc : chunkDefined s.cfg s.eeAddr.toNat = true) :
    step s = .next s.writeChunk := by
  simp [step, nextAction, h, ho, writeStep, hc]

theorem step_verify (h : s.restartIn = false) (ho : s.op = .eeVerify) (hc : chunkDefined s.cfg s.eeAddr.toNat = true) :
    step s = .next s.verifyChunk := by
  simp [step, nextAction, h, ho, verifyStep, hc]

end

/-- The words the decoder takes (R96), one by one. -/
theorem decodeCommand_cases (r : Request) :
    (∃ n, decodeCommand r = .ok (.select n)) ∨ decodeCommand r = .ok .burn ∨ decodeCommand r = .ok .toggleBus ∨
      (decodeCommand r = .ok (.replaceImage r.imgIn) ∧ Memory.wf imgBytes r.imgIn = true) ∨
      (decodeCommand r = .error .operandShape ∧ Memory.wf imgBytes r.imgIn = false) ∨
      decodeCommand r = .error .badCommand := by
  unfold decodeCommand
  split
  · exact .inl ⟨_, rfl⟩
  · split
    · simp
    · split
      · simp
      · split
        · simp
        · split
          · cases Memory.wf imgBytes r.imgIn <;> simp
          · simp

/-- What one step can do, when it answers a next state: one constructor per row of the transition tables of R157 and
R191, and the command port. -/
inductive Move (s : State) : State → Prop where
  | restart (h : s.restartIn = true) : Move s s.restart
  | wait (h : s.restartIn = false) (ho : s.op = .idle) (hc : s.cmdIn = []) : Move s s
  | select (h : s.restartIn = false) (ho : s.op = .idle) {r : Request} {rest : List Request} (hc : s.cmdIn = r :: rest)
      {n : BitVec 4} (hd : decodeCommand r = .ok (.select n)) :
      Move s (State.selectStep { s with cmdIn := rest } n State.transferStart)
  | burn (h : s.restartIn = false) (ho : s.op = .idle) {r : Request} {rest : List Request} (hc : s.cmdIn = r :: rest)
      (hd : decodeCommand r = .ok .burn) (hv : s.imgValid = true) : Move s { s with cmdIn := rest, op := .eeProbe }
  | burnNoImage (h : s.restartIn = false) (ho : s.op = .idle) {r : Request} {rest : List Request}
      (hc : s.cmdIn = r :: rest) (hd : decodeCommand r = .ok .burn) (hv : s.imgValid = false) :
      Move s (State.raise { s with cmdIn := rest } .noImage none)
  | toggle (h : s.restartIn = false) (ho : s.op = .idle) {r : Request} {rest : List Request} (hc : s.cmdIn = r :: rest)
      (hd : decodeCommand r = .ok .toggleBus) :
      Move s ((State.setBus { s with cmdIn := rest } s.busSel.other).complete (onboardFlag s.busSel.other))
  | replace (h : s.restartIn = false) (ho : s.op = .idle) {r : Request} {rest : List Request}
      (hc : s.cmdIn = r :: rest) (hd : decodeCommand r = .ok (.replaceImage r.imgIn))
      (hw : Memory.wf imgBytes r.imgIn = true) : Move s (State.replaceImage { s with cmdIn := rest } r.imgIn)
  | illegal (h : s.restartIn = false) (ho : s.op = .idle) {r : Request} {rest : List Request}
      (hc : s.cmdIn = r :: rest) (hd : decodeCommand r = .error .badCommand) :
      Move s (State.raise { s with cmdIn := rest } .badCommand none)
  | notifyRelease (h : s.restartIn = false) (ho : s.op = .xferNotify) (hn : s.clNcnt = 0) : Move s s.notifyRelease
  | notifyWait (h : s.restartIn = false) (ho : s.op = .xferNotify) (hn : 0 < s.clNcnt) : Move s s.notifyWait
  | header (h : s.restartIn = false) (ho : s.op = .xferHeader) : Move s (s.poll s.cfg.hdrTimeout State.headerEdge)
  | data (h : s.restartIn = false) (ho : s.op = .xferData) :
      Move s (s.poll s.cfg.dataTimeout (State.dataEdge s.clCur))
  | probe (h : s.restartIn = false) (ho : s.op = .eeProbe) : Move s s.probe
  | write (h : s.restartIn = false) (ho : s.op = .eeWrite) (hc : chunkDefined s.cfg s.eeAddr.toNat = true) :
      Move s s.writeChunk
  | verify (h : s.restartIn = false) (ho : s.op = .eeVerify) (hc : chunkDefined s.cfg s.eeAddr.toNat = true) :
      Move s s.verifyChunk

/-- The step inversion: a next state is reached by one of the moves. -/
theorem move_of_step {s t : State} (e : step s = .next t) : Move s t := by
  cases h : s.restartIn with
  | true =>
    rw [step_restart h] at e
    injection e with e
    subst e
    exact .restart h
  | false =>
    cases ho : s.op with
    | idle =>
      cases hc : s.cmdIn with
      | nil =>
        rw [step_no_request h ho hc] at e
        injection e with e
        subst e
        exact .wait h ho hc
      | cons r rest =>
        have idle : ({ s with cmdIn := rest } : State).op = .idle := ho
        rcases decodeCommand_cases r with ⟨n, hd⟩ | hd | hd | ⟨hd, hw⟩ | ⟨hd, hw⟩ | hd
        · rw [step_request h ho hc hd, exec, execSelect, whenIdle_of_idle idle] at e
          injection e with e
          subst e
          exact .select h ho hc hd
        · rw [step_request h ho hc hd, exec, execBurn, whenIdle_of_idle idle] at e
          injection e with e
          subst e
          cases hv : s.imgValid with
          | true => simpa [hv] using Move.burn h ho hc hd hv
          | false => simpa [hv] using Move.burnNoImage h ho hc hd hv
        · rw [step_request h ho hc hd, exec, execToggleBus, whenIdle_of_idle idle] at e
          injection e with e
          subst e
          exact .toggle h ho hc hd
        · rw [step_request h ho hc hd, exec, execReplaceImage, whenIdle_of_idle idle, if_pos hw] at e
          injection e with e
          subst e
          exact .replace h ho hc hd hw
        · rw [step_bad_operand h ho hc hd] at e
          cases e
        · rw [step_illegal h ho hc hd] at e
          injection e with e
          subst e
          exact .illegal h ho hc hd
    | xferNotify =>
      rw [step_notify h ho] at e
      injection e with e
      subst e
      by_cases hn : s.clNcnt = 0
      · rw [if_pos hn]
        exact .notifyRelease h ho hn
      · rw [if_neg hn]
        exact .notifyWait h ho (by omega)
    | xferHeader =>
      rw [step_header h ho] at e
      injection e with e
      subst e
      exact .header h ho
    | xferData =>
      rw [step_data h ho] at e
      injection e with e
      subst e
      exact .data h ho
    | eeProbe =>
      rw [step_probe h ho] at e
      injection e with e
      subst e
      exact .probe h ho
    | eeWrite =>
      by_cases hc : chunkDefined s.cfg s.eeAddr.toNat = true
      · rw [step_write h ho hc] at e
        injection e with e
        subst e
        exact .write h ho hc
      · simp [step, nextAction, h, ho, writeStep, hc] at e
    | eeVerify =>
      by_cases hc : chunkDefined s.cfg s.eeAddr.toNat = true
      · rw [step_verify h ho hc] at e
        injection e with e
        subst e
        exact .verify h ho hc
      · simp [step, nextAction, h, ho, verifyStep, hc] at e

end Sys2Proof.Machine
end

