-- ==== Sys2Proof/Laws/Run.lean ====
section
/-! SUPPORT. The polling iterations of the two phases as plain records, and runs of several steps. -/

namespace Sys2Proof.Machine

theorem clkLevel_cons {s : State} {c : Level} {r : List Level} (h : s.clkIn = c :: r) : s.clkLevel = c := by
  simp [State.clkLevel, h]

/-- The sampling part of a polling iteration (R144). -/
theorem sampled_eq (s : State) : s.sampled =
    { s with
      clTmo := s.clTmo - 1
      clPrev := s.clkLevel
      clkIn := s.clkIn.tail
      envIdx := if s.clkIn = [] then s.envIdx + 1 else s.envIdx
      trace := .clkSample s.clkLevel :: .wdtKick :: s.trace } := rfl

/-- The sampling part and the reload at a falling edge (R144). -/
theorem sampled_reload {s : State} (b : Nat) (hc : s.clkLevel = false) : s.sampled.reload b =
    { s with
      clTmo := if s.cfg.tmoPerEdge then b else s.clTmo - 1
      clPrev := false
      clkIn := s.clkIn.tail
      envIdx := if s.clkIn = [] then s.envIdx + 1 else s.envIdx
      trace := .clkSample false :: .wdtKick :: s.trace } := by
  rw [reload_eq, sampled_eq]
  simp [hc]

/-- One polling iteration of the header phase (R144, R147, R149). -/
theorem header_poll_cases (s : State) :
    (s.clTmo = 0 ∧ s.poll s.cfg.hdrTimeout State.headerEdge = s.raise .transferTimeout none) ∨
      (0 < s.clTmo ∧ ¬(s.clPrev = true ∧ s.clkLevel = false) ∧
        s.poll s.cfg.hdrTimeout State.headerEdge = s.sampled) ∨
      (0 < s.clTmo ∧ s.clPrev = true ∧ s.clkLevel = false ∧ s.clEdge.toNat ≠ 36 ∧
        s.poll s.cfg.hdrTimeout State.headerEdge =
          { s with
            clTmo := if s.cfg.tmoPerEdge then s.cfg.hdrTimeout else s.clTmo - 1
            clPrev := false
            clkIn := s.clkIn.tail
            envIdx := if s.clkIn = [] then s.envIdx + 1 else s.envIdx
            clEdge := BitVec.ofNat 6 (s.clEdge.toNat + 1)
            sda := headerLevel (s.clEdge.toNat + 1)
            trace := .tx (headerLevel (s.clEdge.toNat + 1)) :: .clkSample false :: .wdtKick :: s.trace }) ∨
      (0 < s.clTmo ∧ s.clPrev = true ∧ s.clkLevel = false ∧ s.clEdge.toNat = 36 ∧
        s.poll s.cfg.hdrTimeout State.headerEdge =
          { s with
            clTmo := s.cfg.dataTimeout
            clPrev := false
            clkIn := s.clkIn.tail
            envIdx := if s.clkIn = [] then s.envIdx + 1 else s.envIdx
            clEdge := 37
            sda := true
            trace := .tx true :: .clkSample false :: .wdtKick :: s.trace
            clByte := 0
            clBit := 0
            clCur := s.fetchByte 0
            op := .xferData }) := by
  rcases poll_cases s s.cfg.hdrTimeout State.headerEdge with ⟨h, e⟩ | ⟨h, h', e⟩ | ⟨h, hp, hc, e⟩
  · exact .inl ⟨h, e⟩
  · exact .inr (.inl ⟨h, h', e⟩)
  · rw [sampled_reload _ hc] at e
    rcases headerEdge_cases { s with
      clTmo := if s.cfg.tmoPerEdge then s.cfg.hdrTimeout else s.clTmo - 1
      clPrev := false
      clkIn := s.clkIn.tail
      envIdx := if s.clkIn = [] then s.envIdx + 1 else s.envIdx
      trace := .clkSample false :: .wdtKick :: s.trace } with ⟨h3, e2⟩ | ⟨h3, e2⟩
    · exact .inr (.inr (.inl ⟨h, hp, hc, h3, e.trans e2⟩))
    · exact .inr (.inr (.inr ⟨h, hp, hc, h3, e.trans e2⟩))

/-- One polling iteration of the data phase (R144, R150, R151, R156). -/
theorem data_poll_cases (s : State) (d : Byte) :
    (s.clTmo = 0 ∧ s.poll s.cfg.dataTimeout (State.dataEdge d) = s.raise .transferTimeout none) ∨
      (0 < s.clTmo ∧ ¬(s.clPrev = true ∧ s.clkLevel = false) ∧
        s.poll s.cfg.dataTimeout (State.dataEdge d) = s.sampled) ∨
      (0 < s.clTmo ∧ s.clPrev = true ∧ s.clkLevel = false ∧ s.clBit.toNat < 8 ∧
        s.poll s.cfg.dataTimeout (State.dataEdge d) =
          { s with
            clTmo := if s.cfg.tmoPerEdge then s.cfg.dataTimeout else s.clTmo - 1
            clPrev := false
            clkIn := s.clkIn.tail
            envIdx := if s.clkIn = [] then s.envIdx + 1 else s.envIdx
            clBit := BitVec.ofNat 4 (s.clBit.toNat + 1)
            sda := d.getLsbD (7 - s.clBit.toNat)
            trace := .tx (d.getLsbD (7 - s.clBit.toNat)) :: .clkSample false :: .wdtKick :: s.trace }) ∨
      (0 < s.clTmo ∧ s.clPrev = true ∧ s.clkLevel = false ∧ 8 ≤ s.clBit.toNat ∧ s.clByte.toNat < 511 ∧
        s.poll s.cfg.dataTimeout (State.dataEdge d) =
          { s with
            clTmo := if s.cfg.tmoPerEdge then s.cfg.dataTimeout else s.clTmo - 1
            clPrev := false
            clkIn := s.clkIn.tail
            envIdx := if s.clkIn = [] then s.envIdx + 1 else s.envIdx
            clBit := 0
            clByte := BitVec.ofNat 10 (s.clByte.toNat + 1)
            clCur := s.fetchByte (s.clByte.toNat + 1)
            sda := true
            trace := .tx true :: .clkSample false :: .wdtKick :: s.trace }) ∨
      (0 < s.clTmo ∧ s.clPrev = true ∧ s.clkLevel = false ∧ 8 ≤ s.clBit.toNat ∧ 511 ≤ s.clByte.toNat ∧
        s.poll s.cfg.dataTimeout (State.dataEdge d) =
          { s with
            clTmo := if s.cfg.tmoPerEdge then s.cfg.dataTimeout else s.clTmo - 1
            clPrev := false
            clkIn := s.clkIn.tail
            envIdx := if s.clkIn = [] then s.envIdx + 1 else s.envIdx
            clBit := 0
            clByte := BitVec.ofNat 10 (s.clByte.toNat + 1)
            sda := true
            trace := .tx true :: .clkSample false :: .wdtKick :: s.trace
            irqLock := false
            op := .idle
            result := true
            status := .ok }) := by
  rcases poll_cases s s.cfg.dataTimeout (State.dataEdge d) with ⟨h, e⟩ | ⟨h, h', e⟩ | ⟨h, hp, hc, e⟩
  · exact .inl ⟨h, e⟩
  · exact .inr (.inl ⟨h, h', e⟩)
  · rw [sampled_reload _ hc] at e
    generalize ht : ({ s with
      clTmo := if s.cfg.tmoPerEdge then s.cfg.dataTimeout else s.clTmo - 1
      clPrev := false
      clkIn := s.clkIn.tail
      envIdx := if s.clkIn = [] then s.envIdx + 1 else s.envIdx
      trace := .clkSample false :: .wdtKick :: s.trace } : State) = t at e
    rcases dataEdge_cases d t with ⟨h3, e2⟩ | ⟨h3, e2⟩
    · subst ht
      exact .inr (.inr (.inl ⟨h, hp, hc, h3, e.trans e2⟩))
    · rcases gapEdge_cases t with ⟨h4, e3⟩ | ⟨h4, e3⟩ <;> subst ht
      · exact .inr (.inr (.inr (.inl ⟨h, hp, hc, h3, h4, (e.trans e2).trans e3⟩)))
      · exact .inr (.inr (.inr (.inr ⟨h, hp, hc, h3, h4, (e.trans e2).trans e3⟩)))

/-- The pairs a verify step compares, byte by byte (R187). -/
theorem verify_pairs (s : State) (a : Nat) : (s.imageChunk a).zip (s.readAnswer a (chunkLen s.cfg a)) =
    (List.range (chunkLen s.cfg a)).map fun i => (s.img.read (a + i), s.ee.read (a + i) ^^^ s.readError i) := by
  unfold State.imageChunk Memory.readBytes State.readAnswer
  rw [List.zip_map']

/-- A run of one step more. -/
theorem run_succ_next {s t : State} {k : Nat} (h : step s = .next t) :
    Host.Core.run Sys2Proof.core (k + 1) s = Host.Core.run Sys2Proof.core k t := by
  have : Sys2Proof.core.step s = .next t := h
  simp only [Host.Core.run, this]

/-- A run in two parts. -/
theorem run_add {s t : State} {k l : Nat} (h : Host.Core.run Sys2Proof.core k s = .next t) :
    Host.Core.run Sys2Proof.core (k + l) s = Host.Core.run Sys2Proof.core l t := by
  induction k generalizing s with
  | zero =>
    simp only [Host.Core.run] at h
    injection h with h
    subst h
    simp
  | succ k ih =>
    have e : k + 1 + l = (k + l) + 1 := by omega
    rw [e]
    cases hs : step s with
    | next u =>
      rw [run_succ_next hs] at h
      rw [run_succ_next hs]
      exact ih h
    | fault r =>
      have : Sys2Proof.core.step s = .fault r := hs
      simp only [Host.Core.run, this] at h
      cases h
    | refused r =>
      have : Sys2Proof.core.step s = .refused r := hs
      simp only [Host.Core.run, this] at h
      cases h

end Sys2Proof.Machine
end

