-- ==== Sys2Proof/Laws/Trace.lean ====
section
/-! SUPPORT. The views of the event trace, event by event, and the frame, level by level. -/

namespace Sys2Proof.Machine

section
variable (r : List Event)

@[simp] theorem txOf_nil : txOf [] = [] := rfl
@[simp] theorem txOf_transferStart : txOf (.transferStart :: r) = [] := rfl
@[simp] theorem txOf_tx (v : Level) : txOf (.tx v :: r) = v :: txOf r := rfl
@[simp] theorem txOf_wdtKick : txOf (.wdtKick :: r) = txOf r := rfl
@[simp] theorem txOf_clkSample (c : Level) : txOf (.clkSample c :: r) = txOf r := rfl
@[simp] theorem txOf_eeProbe (p : Bool) : txOf (.eeProbe p :: r) = txOf r := rfl
@[simp] theorem txOf_eeWrite (a : Nat) (v : List Byte) : txOf (.eeWrite a v :: r) = txOf r := rfl
@[simp] theorem txOf_eeRead (a : Nat) (v : List Byte) : txOf (.eeRead a v :: r) = txOf r := rfl
@[simp] theorem txOf_failure (s : Status) (i : Option Nat) : txOf (.failure s i :: r) = txOf r := rfl
@[simp] theorem txOf_firstMismatch (a : Nat) (e g : Byte) : txOf (.firstMismatch a e g :: r) = txOf r := rfl

@[simp] theorem kickCount_nil : kickCount [] = 0 := rfl
@[simp] theorem kickCount_wdtKick : kickCount (.wdtKick :: r) = kickCount r + 1 := rfl
@[simp] theorem kickCount_transferStart : kickCount (.transferStart :: r) = kickCount r := rfl
@[simp] theorem kickCount_tx (v : Level) : kickCount (.tx v :: r) = kickCount r := rfl
@[simp] theorem kickCount_clkSample (c : Level) : kickCount (.clkSample c :: r) = kickCount r := rfl
@[simp] theorem kickCount_eeProbe (p : Bool) : kickCount (.eeProbe p :: r) = kickCount r := rfl
@[simp] theorem kickCount_eeWrite (a : Nat) (v : List Byte) : kickCount (.eeWrite a v :: r) = kickCount r := rfl
@[simp] theorem kickCount_eeRead (a : Nat) (v : List Byte) : kickCount (.eeRead a v :: r) = kickCount r := rfl
@[simp] theorem kickCount_failure (s : Status) (i : Option Nat) : kickCount (.failure s i :: r) = kickCount r := rfl
@[simp] theorem kickCount_firstMismatch (a : Nat) (e g : Byte) :
    kickCount (.firstMismatch a e g :: r) = kickCount r := rfl

@[simp] theorem sampleCount_nil : sampleCount [] = 0 := rfl
@[simp] theorem sampleCount_clkSample (c : Level) : sampleCount (.clkSample c :: r) = sampleCount r + 1 := rfl
@[simp] theorem sampleCount_wdtKick : sampleCount (.wdtKick :: r) = sampleCount r := rfl
@[simp] theorem sampleCount_transferStart : sampleCount (.transferStart :: r) = sampleCount r := rfl
@[simp] theorem sampleCount_tx (v : Level) : sampleCount (.tx v :: r) = sampleCount r := rfl
@[simp] theorem sampleCount_eeProbe (p : Bool) : sampleCount (.eeProbe p :: r) = sampleCount r := rfl
@[simp] theorem sampleCount_eeWrite (a : Nat) (v : List Byte) : sampleCount (.eeWrite a v :: r) = sampleCount r := rfl
@[simp] theorem sampleCount_eeRead (a : Nat) (v : List Byte) : sampleCount (.eeRead a v :: r) = sampleCount r := rfl
@[simp] theorem sampleCount_failure (s : Status) (i : Option Nat) :
    sampleCount (.failure s i :: r) = sampleCount r := rfl
@[simp] theorem sampleCount_firstMismatch (a : Nat) (e g : Byte) :
    sampleCount (.firstMismatch a e g :: r) = sampleCount r := rfl

end

/-- Mismatch reports in front of a trace are seen by none of its three views. -/
theorem views_of_reports {new : List Event} (h : ∀ e ∈ new, ∃ x y z, e = .firstMismatch x y z) (r : List Event) :
    txOf (new ++ r) = txOf r ∧ kickCount (new ++ r) = kickCount r ∧ sampleCount (new ++ r) = sampleCount r := by
  induction new with
  | nil => exact ⟨rfl, rfl, rfl⟩
  | cons e new ih =>
    obtain ⟨x, y, z, rfl⟩ := h e (by simp)
    have := ih fun e he => h e (by simp [he])
    simpa using this

@[simp] theorem framePart_length (img : Memory) (sel : BitVec 3) (n : Nat) : (framePart img sel n).length = n := by
  simp [framePart]

@[simp] theorem framePart_zero (img : Memory) (sel : BitVec 3) : framePart img sel 0 = [] := rfl

/-- One more level of the frame. -/
theorem framePart_succ (img : Memory) (sel : BitVec 3) (n : Nat) :
    framePart img sel (n + 1) = framePart img sel n ++ [frameLevel img sel (n + 1)] := by
  simp [framePart, List.range_succ]

theorem frameLevel_header {img : Memory} {sel : BitVec 3} {g : Nat} (h : g ≤ 37) :
    frameLevel img sel g = headerLevel g := if_pos h

/-- The frame in the data phase, by byte and bit (R93): bit edges. -/
theorem frameLevel_bit (img : Memory) (sel : BitVec 3) {i j : Nat} (hj : j < 8) :
    frameLevel img sel (38 + 9 * i + j) = (img.read (512 * sel.toNat + i)).getLsbD (7 - j) := by
  have e : 38 + 9 * i + j - 38 = 9 * i + j := by omega
  have em : (9 * i + j) % 9 = j := by omega
  have ed : (9 * i + j) / 9 = i := by omega
  rw [frameLevel, if_neg (by omega), e, em, ed, if_neg (by omega)]

/-- The frame in the data phase, by byte and bit (R93): the gap. -/
theorem frameLevel_gap (img : Memory) (sel : BitVec 3) (i : Nat) : frameLevel img sel (38 + 9 * i + 8) = true := by
  have e : 38 + 9 * i + 8 - 38 = 9 * i + 8 := by omega
  have em : (9 * i + 8) % 9 = 8 := by omega
  rw [frameLevel, if_neg (by omega), e, em, if_pos rfl]

/-- TX of a state whose trace begins with a driven level. -/
theorem tx_of_trace_tx {s : State} {v : Level} {r : List Event} (h : s.trace = .tx v :: r) :
    s.tx = (txOf r).reverse ++ [v] := by
  simp [State.tx, h]

end Sys2Proof.Machine
end

