-- ==== Sys2Proof/Tests/Slice0.lean ====
section
/-! SUPPORT. The model's own tests: well-formedness, decoding, one step of each instruction (expected results from
95_test_vectors.md), and a witness of the hypotheses of each statement. -/

namespace Sys2Proof.Tests

open Sys2Proof Sys2Proof.Machine

/-- Small parameters: the two bus pin pairs differ, the EEPROM has two pages of 4 bytes. -/
def p0 : Params where
  notifyIter := 2
  wdtNotifyPeriod := 1
  hdrTimeout := 200
  dataTimeout := 20000
  tmoPerEdge := false
  eePage := 4
  eeCap := 8
  probeDelay := 1
  busPinsOnboard := 0
  busPinsExternal := 3

/-- After reset, with those parameters. -/
def s0 : State := State.resetWith p0

/-- With an image loaded: byte 0 is 0xA5, byte 3 is 0x01, byte 4 is 0x80, byte 3584 is 0x42. -/
def s1 : State := { s0 with img := [(0, 0xA5), (3, 0x01), (4, 0x80), (3584, 0x42)], imgValid := true }

/-- A request at the port. -/
def req (w : Byte) : Request := { cmd := w, imgIn := [] }

/-- In the notify wait, the header phase, the data phase. -/
def sNotify (n : Nat) : State := { s1 with op := .xferNotify, irqLock := true, notifyN := false, clNcnt := n }

def sHeader (k : BitVec 6) (tmo : Nat) (clk : List Level) : State :=
  { s1 with op := .xferHeader, irqLock := true, clEdge := k, clTmo := tmo, clkIn := clk }

def sData (byte : BitVec 10) (bit : BitVec 4) (tmo : Nat) (clk : List Level) : State :=
  { s1 with
    op := .xferData, irqLock := true, clEdge := 37, clByte := byte, clBit := bit, clTmo := tmo, clkIn := clk
    clCur := s1.img.read byte.toNat }

/-- In the probe, write and verify phases. -/
def sProbe (answers : List Bool) : State := { s1 with op := .eeProbe, probeIn := answers }

def sWrite (a : BitVec 13) : State := { s1 with op := .eeWrite, eeAddr := a }

def sVerify (a : BitVec 13) (m : BitVec 2) (err : List (List Byte)) : State :=
  { s1 with op := .eeVerify, eeAddr := a, eeMism := m, ee := [(0, 0xA5), (3, 0x01), (4, 0x80)], readErrIn := err }

/-! Well-formedness: an ill-formed term for each check -/

theorem test_wf_refuses_falling_addresses : (Instr.replaceImage [(5, 1), (4, 1)]).wf = false := by decide
theorem test_wf_refuses_repeated_address : (Instr.replaceImage [(5, 1), (5, 2)]).wf = false := by decide
theorem test_wf_refuses_filler_cell : (Instr.replaceImage [(5, 0)]).wf = false := by decide
theorem test_wf_refuses_byte_4096 : (Instr.replaceImage [(4096, 1)]).wf = false := by decide
theorem test_wf_takes_byte_4095 : (Instr.replaceImage [(0, 1), (4095, 1)]).wf = true := by decide

/-! Decoding: words and levels written out bit by bit from R91, R92 and R96 -/

theorem test_decode_select : decode (.command (req 0b00010101)) = .ok (.select 5) := by decide
theorem test_decode_burn : decode (.command (req 0b00100000)) = .ok .burn := by decide
theorem test_decode_toggle : decode (.command (req 0b00110000)) = .ok .toggleBus := by decide
theorem test_decode_replace :
    decode (.command { cmd := 0b01000000, imgIn := [(7, 9)] }) = .ok (.replaceImage [(7, 9)]) := by decide
theorem test_decode_header : decode (.wire
    [true, true, true, true, true, true, true, false, true, true, true, true, true, true, true, true, false,
     true, true, true, true, true, true, true, true, false, true, true, true, true, true, true, true, true, true,
     false, true]) = .ok .header := by decide
/-- T2: `101001011`. -/
theorem test_decode_cell : decode (.wire [true, false, true, false, false, true, false, true, true]) =
    .ok (.byteCell 0xA5) := by decide
/-- R92: the gap is high, so a cell with a low gap is no wire format. -/
theorem test_decode_low_gap : decode (.wire [true, false, true, false, false, true, false, true, false]) =
    .error .notAWireFormat := by decide
/-- I8. -/
theorem test_decode_illegal : ([0x00, 0x50, 0xFF, 0x21, 0x31, 0x41].map fun w => decode (.command (req w))) =
    [.error .badCommand, .error .badCommand, .error .badCommand, .error .badCommand, .error .badCommand,
      .error .badCommand] := by decide
theorem test_decode_bad_operand : decode (.command { cmd := 0x40, imgIn := [(4096, 1)] }) = .error .operandShape := by
  decide
theorem test_encode_select : encode (.select 7) = .command (req 0x17) := by decide
/-- T5: byte 0x01. -/
theorem test_encode_cell : encode (.byteCell 0x01) =
    .wire [false, false, false, false, false, false, false, true, true] := by decide

theorem test_table_select : decodeTableWord 8 0x10 = some (.select 0) := by decide
theorem test_table_replace : decodeTableWord 8 0x40 = some (.replaceImage []) := by decide
theorem test_table_illegal : decodeTableWord 8 0x50 = none := by decide
theorem test_table_cell : decodeTableWord 16 0b101001011 = some (.byteCell 0xA5) := by decide
theorem test_table_header : decodeTableWord 40 0x1FDFEFF7FD = some .header := by decide

theorem test_place_toggle : step (s0.withFetchWord 8 0x30) = exec .toggleBus s0 := rfl
theorem test_place_header : nextAction (s0.withFetchWord 40 0x1FDFEFF7FD) =
    .run .header (s0.withFetchWord 40 0x1FDFEFF7FD) := rfl
theorem test_place_cell : nextAction (s0.withFetchWord 16 0b101001011) =
    .run (.byteCell 0xA5) (s0.withFetchWord 16 0b101001011) := rfl

/-! One step of each instruction -/

/-- The next state, where there is one. -/
def after : Outcome → Option State
  | .next t => some t
  | .fault _ => none
  | .refused _ => none

/-- I3: the index is tested before the image. -/
theorem test_select_eight_at_reset : (after (exec (.select 8) s0)).map (fun t => (t.result, t.status, t.sel, t.op)) =
    some (false, .invalidIndex, 0, .idle) := by decide
/-- I5: the accepted SELECT starts the notify pulse on slot 7. -/
theorem test_select_seven : (after (exec (.select 7) s1)).map
    (fun t => (t.sel, t.op, t.notifyN, t.sda, t.irqLock, t.clNcnt)) =
    some (7, .xferNotify, false, true, true, 2) := by decide

/-- E11. -/
theorem test_burn_at_reset : (after (exec .burn s0)).map (fun t => (t.result, t.status, t.op, t.ee)) =
    some (false, .noImage, .idle, []) := by decide
/-- E12, E15: an accepted BURN probes and locks nothing. -/
theorem test_burn_loaded : (after (exec .burn s1)).map (fun t => (t.op, t.irqLock, t.busSel, t.sda)) =
    some (.eeProbe, false, .onboard, true) := by decide

/-- B1, B3. -/
theorem test_toggle_at_reset : (after (exec .toggleBus s0)).map (fun t => (t.busSel, t.busPin, t.result, t.status)) =
    some (.external, 3, false, .ok) := by decide
/-- B2. -/
theorem test_toggle_back : (after (exec .toggleBus { s0 with busSel := .external, busPin := 3 })).map
    (fun t => (t.busSel, t.busPin, t.result, t.status)) = some (.onboard, 0, true, .ok) := by decide

/-- I1. -/
theorem test_replace_zero : (after (exec (.replaceImage []) s0)).map
    (fun t => (t.imgValid, t.sel, t.img.read 4095, t.result, t.status, t.op)) =
    some (true, 0, 0, true, .ok, .idle) := by decide
/-- I6: the same bytes still clear SEL. -/
theorem test_replace_same : (after (exec (.replaceImage s1.img) { s1 with sel := 5 })).map
    (fun t => (t.sel, t.img.read 3584, t.notifyN)) = some (0, 0x42, true) := by decide

/-- T1: the line is low at the 8th falling edge. -/
theorem test_header_edge_eight : (after (exec .header (sHeader 7 9 [false]))).map
    (fun t => (t.clEdge, t.sda, t.clTmo, t.clPrev, t.op)) = some (8, false, 8, false, .xferHeader) := by decide
/-- T1, R149: the 37th edge is high and byte 0 is fetched. -/
theorem test_header_edge_last : (after (exec .header (sHeader 36 1 [false]))).map
    (fun t => (t.clEdge, t.sda, t.op, t.clCur, t.clTmo)) = some (37, true, .xferData, 0xA5, 20000) := by decide

/-- T2: the second bit of 0xA5 is 0. -/
theorem test_cell_second_bit : (after (exec (.byteCell 0xA5) (sData 0 1 5 [false]))).map
    (fun t => (t.clBit, t.sda, t.op)) = some (2, false, .xferData) := by decide
/-- T7: the last gap ends the transfer. -/
theorem test_cell_last_gap : (after (exec (.byteCell 0) (sData 511 8 1 [false]))).map
    (fun t => (t.clByte, t.clBit, t.sda, t.irqLock, t.op, t.result)) =
    some (512, 0, true, false, .idle, true) := by decide

/-! One step of a command in flight -/

/-- R142: the first notify wait services the watchdog. -/
theorem test_notify_first_wait : (after (step (sNotify 2))).map (fun t => (t.clNcnt, t.trace)) =
    some (1, [.wdtKick]) := by decide
/-- T17's end: an exhausted budget aborts before the line is sampled. -/
theorem test_poll_exhausted : (after (step (sHeader 1 0 [false]))).map
    (fun t => (t.clEdge, t.op, t.status, t.clkIn)) = some (1, .idle, .transferTimeout, [false]) := by decide
/-- E12: an absent device leaves the block probing. -/
theorem test_probe_absent : (after (step (sProbe [false]))).map (fun t => (t.op, t.status)) =
    some (.eeProbe, .deviceNotPresent) := by decide
/-- E1's shape: the first chunk goes to address 0. -/
theorem test_write_first_chunk : (after (step (sWrite 0))).map (fun t => (t.ee, t.eeAddr, t.op)) =
    some ([(0, 0xA5), (3, 0x01)], 4, .eeWrite) := by decide
/-- E6: one wrong byte at the last address is tolerated. -/
theorem test_verify_one_mismatch : (after (step (sVerify 4 0 [[0, 0, 0, 1]]))).map
    (fun t => (t.result, t.status, t.eeMism, t.eeMaddr, t.op)) = some (true, .ok, 1, 7, .idle) := by decide
/-- E9: the second wrong byte, the first of the second page. -/
theorem test_verify_second_mismatch : (after (step { sVerify 4 1 [[1]] with eeMaddr := 3 })).map
    (fun t => (t.result, t.status, t.eeMism, t.eeMaddr, t.eeAddr)) = some (false, .verifyMismatch, 2, 3, 4) := by
  decide

/-! The HexLoader -/

/-- Loader parameters under which a file of 20 bytes (X1 and a newline) or 12 is accepted. -/
def h0 : HexParams := { sizeCrlf := 20, sizeLf := 12, checkEofSum := true, applyAfterEof := false }

/-- X1: `:04000000804000112B`. -/
def lineX1 : List Byte := [58, 48, 52, 48, 48, 48, 48, 48, 48, 56, 48, 52, 48, 48, 48, 49, 49, 50, 66]

/-- `:00000001FF` and a newline. -/
def fileEof : List Byte := [58, 48, 48, 48, 48, 48, 48, 48, 49, 70, 70, 10]

theorem test_line_good : processLine h0 0 0 [] lineX1 = .placed [(3, 0x11), (2, 0x00), (1, 0x40), (0, 0x80)] := by decide
/-- X3: `:04000000804000112A`. -/
theorem test_line_bad_sum : processLine h0 0 0 []
    [58, 48, 52, 48, 48, 48, 48, 48, 48, 56, 48, 52, 48, 48, 48, 49, 49, 50, 65] = .failed .checksumError := by decide
/-- X4: a line beginning `;`. -/
theorem test_line_marker : processLine h0 0 0 [] [59, 48] = .failed .malformedFile := by decide
/-- X6: type 2, the checksum wrong. -/
theorem test_line_type_two : processLine h0 0 0 []
    [58, 48, 52, 48, 48, 48, 48, 48, 50, 56, 48, 52, 48, 48, 48, 49, 49, 48, 48] = .failed .malformedFile := by decide
/-- R228: `:00000002`, type 2, cut short before its checksum. -/
theorem test_line_cut_type_two : processLine h0 0 0 [] [58, 48, 48, 48, 48, 48, 48, 48, 50] = .failed .malformedFile :=
  processLine_other_type (by decide) (by decide)
/-- R231, U15: `:0110000000EE`, one byte at address 4096 with a wrong checksum, is checksum-error all the same. -/
theorem test_line_outside_bad_sum : processLine h0 0 0 []
    [58, 48, 49, 49, 48, 48, 48, 48, 48, 48, 48, 69, 69] = .failed .checksumError := by decide
/-- R227. -/
theorem test_file_eof_only : (loadFile h0 0 false (some fileEof)).result = .success := by rfl
/-- X5. -/
theorem test_file_no_eof : (loadFile h0 0 false (some (lineX1 ++ [10]))).result = .malformedFile := by decide
/-- R230, R235: a file of lines that are only `:`, which carry no type-1 record. -/
theorem test_file_unreadable : (loadFile h0 0 false (some [58, 10, 58, 10, 58, 10, 58, 10, 58, 10, 58, 10])).result =
    .malformedFile := by decide
/-- X7. -/
theorem test_file_size : (loadFile h0 0 false (some [58])).result = .malformedFile := by decide

/-- A host that holds one good file and a bad one, with a path persisted. -/
def host0 (last : Option Path) : HexHost :=
  { params := h0, files := [([97], fileEof), ([98], lineX1 ++ [10])], lastUsed := last, loads := 0 }

/-- R232: only the load of the process start leaves the "last used" path. -/
theorem test_load_persists : ((host0 (some [98])).load false [97]).2.lastUsed = some [97] ∧
    ((host0 (some [97])).load true [97]).2.lastUsed = some [97] ∧
    ((host0 (some [97])).load false [98]).2.lastUsed = some [97] := ⟨rfl, rfl, rfl⟩
/-- R296: a good last-used file gives one request, a bad one or a missing one none. -/
theorem test_start_requests : ([some [97], some [98], some [99], none].map fun p => (host0 p).start.1.length) =
    [1, 0, 0, 0] := rfl

/-! A witness of the hypotheses of each statement that has hypotheses, and of each of its clauses -/

theorem witness_DecodeEncodeAgree : ([.select 15, .burn, .toggleBus, .replaceImage [(4095, 1)], .header,
    .byteCell 0xFF] : List Instr).all Instr.wf = true := by decide

theorem witness_DecodedCodeEncodesBack :
    (∃ r i, decode (.command r) = .ok i ∧ opcField r.cmd = 4) ∧ (∃ r i, decode (.command r) = .ok i ∧
      opcField r.cmd ≠ 4) ∧ ∃ l i, decode (.wire l) = .ok i :=
  ⟨⟨{ cmd := 0x40, imgIn := [(7, 9)] }, .replaceImage [(7, 9)], by decide, by decide⟩,
    ⟨req 0x1F, .select 15, by decide, by decide⟩, ⟨cellLevels 0xA5, .byteCell 0xA5, by decide⟩⟩

/-- The three kinds of illegal word at their boundaries: 0x0, 0x5 and 0xF, and the three operations with an operand. -/
theorem witness_IllegalWordIsBadCommand : ∀ w ∈ ([0x0F, 0x50, 0xFF, 0x21, 0x3F, 0x41] : List Byte),
    ({ s0 with cmdIn := [req w] } : State).restartIn = false ∧ ({ s0 with cmdIn := [req w] } : State).op = .idle ∧
      ({ s0 with cmdIn := [req w] } : State).cmdIn = req w :: [] ∧
      (opcField w = 0 ∨ 5 ≤ (opcField w).toNat ∨
        ((opcField w = 2 ∨ opcField w = 3 ∨ opcField w = 4) ∧ argField w ≠ 0)) := by decide

theorem witness_FrameCellCarriesByte : 0 < 512 ∧ 511 < 512 := by decide

theorem witness_StepRunsDecodedInstruction :
    (({ s0 with cmdIn := [req 0x30] } : State).restartIn = false ∧ ({ s0 with cmdIn := [req 0x30] } : State).op = .idle ∧
      ({ s0 with cmdIn := [req 0x30] } : State).cmdIn = req 0x30 :: [] ∧
      decode (.command (req 0x30)) = .ok .toggleBus) ∧
    ((sHeader 0 1 []).restartIn = false ∧ (sHeader 0 1 []).op = .xferHeader) ∧
    ((sData 0 0 1 []).restartIn = false ∧ (sData 0 0 1 []).op = .xferData) ∧
    decodeTableWord 8 0x1F = some (.select 15) ∧ decodeTableWord 40 0x1FDFEFF7FD = some .header ∧
    decodeTableWord 16 0b111111111 = some (.byteCell 0xFF) := by decide

theorem witness_NoMoveOutsideItsPhase : (sHeader 0 1 []).op ≠ .idle ∧ (sData 0 0 1 []).op ≠ .xferHeader ∧
    (sHeader 0 1 []).op ≠ .xferData := by decide

theorem witness_ReplaceImageReplacesWholeImage : s0.op = .idle ∧ Memory.wf imgBytes [(0, 1), (4095, 0xFC)] = true := by
  decide

theorem witness_OtherOperandIsNoReplaceImage :
    ({ s0 with cmdIn := [{ cmd := 0x40, imgIn := [(4096, 1)] }] } : State).op = .idle ∧
    ({ s0 with cmdIn := [{ cmd := 0x40, imgIn := [(4096, 1)] }] } : State).restartIn = false ∧
    ({ s0 with cmdIn := [{ cmd := 0x40, imgIn := [(4096, 1)] }] } : State).cmdIn =
      { cmd := 0x40, imgIn := [(4096, 1)] } :: [] ∧
    Memory.wf imgBytes [(4096, 1)] = false := by decide

/-- A step of a command in flight; a step from IDLE that is a REPLACE_IMAGE; one that is not. -/
theorem witness_OnlyReplaceImageWritesImage :
    (∃ t, (sNotify 2).restartIn = false ∧ step (sNotify 2) = .next t ∧ (sNotify 2).op ≠ .idle) ∧
    (∃ t, s0.restartIn = false ∧ s0.op = .idle ∧
      step { s0 with cmdIn := [{ cmd := 0x40, imgIn := [(7, 9)] }] } = .next t ∧ t.img = [(7, 9)]) ∧
    ∃ t, step { s1 with cmdIn := [req 0x17] } = .next t ∧ t.img = s1.img :=
  ⟨⟨_, rfl, rfl, by decide⟩, ⟨_, rfl, rfl, rfl, rfl⟩, ⟨_, rfl, rfl⟩⟩

theorem witness_SelectInvalidIndex : s1.op = .idle ∧ 7 < (8 : BitVec 4).toNat ∧ 7 < (15 : BitVec 4).toNat := by decide

theorem witness_NoImageFails : s0.op = .idle ∧ s0.imgValid = false ∧ (0 : BitVec 4).toNat ≤ 7 ∧
    (7 : BitVec 4).toNat ≤ 7 := by decide

theorem witness_SelectStartsTransfer : s1.op = .idle ∧ s1.imgValid = true ∧ (0 : BitVec 4).toNat ≤ 7 ∧
    (7 : BitVec 4).toNat ≤ 7 := by decide

theorem witness_NotifyWaitAndRelease :
    ((sNotify 1).restartIn = false ∧ (sNotify 1).op = .xferNotify ∧ 0 < (sNotify 1).clNcnt) ∧
    (sNotify 0).restartIn = false ∧ (sNotify 0).op = .xferNotify ∧ (sNotify 0).clNcnt = 0 := by decide

theorem witness_NotifyPulseLength : (sNotify 2).restartIn = false ∧ (sNotify 2).op = .xferNotify ∧
    2 ≤ (sNotify 2).clNcnt := by decide

theorem witness_ExhaustedBudgetAborts : ((sHeader 36 0 []).clTmo = 0 ∧ (sHeader 36 0 []).op = .xferHeader) ∧
    (sData 511 8 0 []).clTmo = 0 ∧ (sData 511 8 0 []).op = .xferData := by decide

/-- A high sample, and a low one after a low one, in each of the two phases. -/
theorem witness_PollWithoutEdge :
    ((sHeader 0 1 [true]).op = .xferHeader ∧ 0 < (sHeader 0 1 [true]).clTmo ∧
      ¬((sHeader 0 1 [true]).clPrev = true ∧ (sHeader 0 1 [true]).clkLevel = false)) ∧
    ((sData 0 0 1 [true]).op = .xferData ∧ 0 < (sData 0 0 1 [true]).clTmo ∧
      ¬((sData 0 0 1 [true]).clPrev = true ∧ (sData 0 0 1 [true]).clkLevel = false)) ∧
    ¬(({ sData 0 0 1 [false] with clPrev := false } : State).clPrev = true ∧
      ({ sData 0 0 1 [false] with clPrev := false } : State).clkLevel = false) := by decide

/-- Edges 1 and 36. -/
theorem witness_HeaderEdgeDrivesLevel : ∀ k ∈ [(0 : BitVec 6), 35], (sHeader k 1 [false]).op = .xferHeader ∧
    0 < (sHeader k 1 [false]).clTmo ∧ (sHeader k 1 [false]).clPrev = true ∧
    (sHeader k 1 [false]).clkLevel = false ∧ (sHeader k 1 [false]).clEdge.toNat < 36 := by decide

theorem witness_LastHeaderEdgeEntersData : (sHeader 36 1 [false]).op = .xferHeader ∧
    0 < (sHeader 36 1 [false]).clTmo ∧ (sHeader 36 1 [false]).clPrev = true ∧
    (sHeader 36 1 [false]).clkLevel = false ∧ (sHeader 36 1 [false]).clEdge.toNat = 36 := by decide

/-- The first and the last bit of a byte. -/
theorem witness_DataEdgeDrivesBit : ∀ j ∈ [(0 : BitVec 4), 7], (sData 0 j 1 [false]).op = .xferData ∧
    0 < (sData 0 j 1 [false]).clTmo ∧ (sData 0 j 1 [false]).clPrev = true ∧
    (sData 0 j 1 [false]).clkLevel = false ∧ (sData 0 j 1 [false]).clBit.toNat < 8 := by decide

/-- Bytes 0 and 510. -/
theorem witness_GapEdgeFetchesNextByte : ∀ b ∈ [(0 : BitVec 10), 510], (sData b 8 1 [false]).op = .xferData ∧
    0 < (sData b 8 1 [false]).clTmo ∧ (sData b 8 1 [false]).clPrev = true ∧ (sData b 8 1 [false]).clkLevel = false ∧
    (sData b 8 1 [false]).clBit.toNat = 8 ∧ (sData b 8 1 [false]).clByte.toNat < 511 := by decide

theorem witness_LastGapEdgeFinishes : (sData 511 8 1 [false]).op = .xferData ∧ 0 < (sData 511 8 1 [false]).clTmo ∧
    (sData 511 8 1 [false]).clPrev = true ∧ (sData 511 8 1 [false]).clkLevel = false ∧
    (sData 511 8 1 [false]).clBit.toNat = 8 ∧ (sData 511 8 1 [false]).clByte.toNat = 511 := by decide

theorem witness_WatchdogServicedEveryPoll :
    (∃ t, (sHeader 7 1 [false]).restartIn = false ∧ (sHeader 7 1 [false]).op.polling = true ∧
      step (sHeader 7 1 [false]) = .next t ∧ 0 < (sHeader 7 1 [false]).clTmo) ∧
    ∃ t, (sData 0 0 0 []).restartIn = false ∧ (sData 0 0 0 []).op.polling = true ∧
      step (sData 0 0 0 []) = .next t ∧ (sData 0 0 0 []).clTmo = 0 :=
  ⟨⟨_, rfl, rfl, rfl, by decide⟩, ⟨_, rfl, rfl, rfl, rfl⟩⟩

/-! States that meet the invariants, in every phase -/

theorem inv_s0 : s0.Inv := by constructor <;> decide
theorem inv_s1_select : State.Inv { s1 with cmdIn := [req 0x17] } := by constructor <;> decide
theorem inv_notify : (sNotify 2).Inv := by constructor <;> decide
theorem inv_notify_last : (sNotify 0).Inv := by constructor <;> decide
theorem inv_header : (sHeader 7 1 [false]).Inv := by constructor <;> decide
theorem inv_header_exhausted : (sHeader 36 0 []).Inv := by constructor <;> decide
theorem inv_data : (sData 0 1 1 [false]).Inv := by constructor <;> decide
theorem inv_data_last : (sData 511 8 1 [false]).Inv := by constructor <;> decide
theorem inv_probe : (sProbe [true]).Inv := by constructor <;> decide
theorem inv_write : (sWrite 4).Inv := by constructor <;> decide
theorem inv_verify : (sVerify 4 1 [[]]).Inv := by constructor <;> decide
theorem inv_operand : State.Inv { s0 with cmdIn := [{ cmd := 0x40, imgIn := [(4096, 1)] }] } := by
  constructor <;> decide

theorem witness_ClockIgnoredOutsidePolling :
    (∃ t, (sNotify 0).Inv ∧ (sNotify 0).restartIn = false ∧ (sNotify 0).op.polling = false ∧
      step (sNotify 0) = .next t) ∧
    ∃ t, (sWrite 4).Inv ∧ (sWrite 4).restartIn = false ∧ (sWrite 4).op.polling = false ∧ step (sWrite 4) = .next t :=
  ⟨⟨_, inv_notify_last, rfl, rfl, rfl⟩, ⟨_, inv_write, rfl, rfl, rfl⟩⟩

/-- The lock is taken by SELECT 7, released by an exhausted budget and by the last gap. -/
theorem witness_LockedContextEntryAndExit :
    (∃ t, State.Inv { s1 with cmdIn := [req 0x17] } ∧ step { s1 with cmdIn := [req 0x17] } = .next t ∧
      s1.irqLock = false ∧ t.irqLock = true) ∧
    (∃ t, (sHeader 36 0 []).Inv ∧ step (sHeader 36 0 []) = .next t ∧ (sHeader 36 0 []).irqLock = true ∧
      t.irqLock = false) ∧
    ∃ t, (sData 511 8 1 [false]).Inv ∧ step (sData 511 8 1 [false]) = .next t ∧
      (sData 511 8 1 [false]).irqLock = true ∧ t.irqLock = false :=
  ⟨⟨_, inv_s1_select, rfl, rfl, rfl⟩, ⟨_, inv_header_exhausted, rfl, rfl, rfl⟩, ⟨_, inv_data_last, rfl, rfl, rfl⟩⟩

/-- The state with the trace its counters stand for. -/
def withTx (s : State) : State := { s with trace := (framePart s.img s.sel s.framePos).reverse.map .tx }

theorem txOf_map_tx (l : List Level) : txOf (l.map .tx) = l := by
  induction l with
  | nil => rfl
  | cons v l ih => rw [List.map_cons, txOf, ih]

theorem tx_withTx (s : State) : (withTx s).tx = framePart s.img s.sel s.framePos := by
  rw [State.tx, withTx, txOf_map_tx, List.reverse_reverse]

theorem txInv_header : (withTx (sHeader 7 1 [false])).TxInv where
  notify := by decide
  header := fun _ => tx_withTx _
  data := by decide

theorem txInv_header_exhausted : (withTx (sHeader 36 0 [])).TxInv where
  notify := by decide
  header := fun _ => tx_withTx _
  data := by decide

theorem txInv_data_last : (withTx (sData 511 8 1 [false])).TxInv where
  notify := by decide
  header := by decide
  data := fun _ => tx_withTx _

theorem inv_withTx {s : State} (h : s.Inv) : (withTx s).Inv := { h with }

theorem witness_TransferTraceInvariant :
    (∃ t, (withTx (sHeader 7 1 [false])).Inv ∧ (withTx (sHeader 7 1 [false])).TxInv ∧
      step (withTx (sHeader 7 1 [false])) = .next t) ∧
    ∃ t, (withTx (sData 511 8 1 [false])).Inv ∧ (withTx (sData 511 8 1 [false])).TxInv ∧
      step (withTx (sData 511 8 1 [false])) = .next t :=
  ⟨⟨_, inv_withTx inv_header, txInv_header, rfl⟩, ⟨_, inv_withTx inv_data_last, txInv_data_last, rfl⟩⟩

theorem witness_EndedTransferDroveFrame :
    (∃ t, (withTx (sData 511 8 1 [false])).Inv ∧ (withTx (sData 511 8 1 [false])).TxInv ∧
      (withTx (sData 511 8 1 [false])).restartIn = false ∧ (withTx (sData 511 8 1 [false])).op.polling = true ∧
      step (withTx (sData 511 8 1 [false])) = .next t ∧ t.op = .idle ∧ t.status = .ok) ∧
    ∃ t, (withTx (sHeader 36 0 [])).Inv ∧ (withTx (sHeader 36 0 [])).TxInv ∧
      (withTx (sHeader 36 0 [])).restartIn = false ∧ (withTx (sHeader 36 0 [])).op.polling = true ∧
      step (withTx (sHeader 36 0 [])) = .next t ∧ t.op = .idle ∧ t.status = .transferTimeout :=
  ⟨⟨_, inv_withTx inv_data_last, txInv_data_last, rfl, rfl, rfl, rfl, rfl⟩,
    ⟨_, inv_withTx inv_header_exhausted, txInv_header_exhausted, rfl, rfl, rfl, rfl, rfl⟩⟩

/-- A clock that stays high; one that stays low after a low sample; one that then rises; a budget already exhausted. -/
theorem witness_StalledClockTimesOut :
    ((sHeader 20 2 []).restartIn = false ∧ (sHeader 20 2 []).op.polling = true ∧ (sData 1 4 2 []).restartIn = false ∧
      (sData 1 4 2 []).op.polling = true ∧ (sHeader 20 2 []).clTmo = 0 + 2 ∧ (sData 1 4 2 []).clTmo = 2 + 0 ∧
      (sData 1 4 2 []).clTmo = 1 + 1 ∧ (sHeader 20 0 []).clTmo = 0 + 0) ∧
    (sHeader 20 2 [true, true]).clkIn = List.replicate 0 false ++ List.replicate 2 true ++ [] ∧
    ({ sData 1 4 2 [] with clPrev := false } : State).clPrev = false ∧
    (sData 1 4 2 [false, false]).clkIn = List.replicate 2 false ++ List.replicate 0 true ++ [] ∧
    (sData 1 4 2 [false, true]).clkIn = List.replicate 1 false ++ List.replicate 1 true ++ [] ∧
    (sHeader 20 0 []).clkIn = List.replicate 0 false ++ List.replicate 0 true ++ [] := by decide

theorem witness_EveryTransferEnds : ((sNotify 2).Inv ∧ (sNotify 2).restartIn = false ∧
      (sNotify 2).op.inTransfer = true) ∧
    ((sHeader 7 1 [false]).Inv ∧ (sHeader 7 1 [false]).op.inTransfer = true) ∧
    (sData 511 8 1 [false]).Inv ∧ (sData 511 8 1 [false]).op.inTransfer = true :=
  ⟨⟨inv_notify, rfl, rfl⟩, ⟨inv_header, rfl⟩, ⟨inv_data_last, rfl⟩⟩

/-- T10 and T15: the least budgets of the two readings. -/
theorem witness_AlternatingClockSendsProgram :
    ∀ p ∈ [{ p0 with hdrTimeout := 74, dataTimeout := 9216 },
        { p0 with hdrTimeout := 2, dataTimeout := 2, tmoPerEdge := true }],
      ∃ s : State, s.cfg = p ∧ s.restartIn = false ∧ s.op = .idle ∧ s.imgValid = true ∧ s.cmdIn = [req 0x17] ∧
        decode (.command (req 0x17)) = .ok (.select 7) ∧ (7 : BitVec 4).toNat ≤ 7 ∧
        (if s.cfg.tmoPerEdge then 2 ≤ s.cfg.hdrTimeout ∧ 2 ≤ s.cfg.dataTimeout
          else 74 ≤ s.cfg.hdrTimeout ∧ 9216 ≤ s.cfg.dataTimeout) ∧
        s.clkIn = (List.replicate 4645 [true, false]).flatten ++ [] := by
  intro p hp
  refine ⟨{ s1 with
    cfg := p, cmdIn := [req 0x17], clkIn := (List.replicate 4645 [true, false]).flatten ++ [] },
    rfl, rfl, rfl, rfl, rfl, by decide, by decide, ?_, rfl⟩
  revert p
  decide

theorem witness_BurnStartsProbing : s1.op = .idle ∧ s1.imgValid = true := by decide

theorem witness_ProbeDecidesWait : (sProbe [true]).restartIn = false ∧ (sProbe [true]).op = .eeProbe ∧
    (sProbe [true]).probeAnswer = true ∧ (sProbe [false]).probeAnswer = false := by decide

theorem witness_AbsentDeviceWaitsForever : (sProbe [false, false, true]).restartIn = false ∧
    (sProbe [false, false, true]).op = .eeProbe ∧
    (sProbe [false, false, true]).probeIn = List.replicate 2 false ++ [true] ∧
    ∃ t, step (sProbe [false, false, true]) = .next t :=
  ⟨rfl, rfl, rfl, _, rfl⟩

/-- The first chunk, the last, and a last one cut short (a page of 3 bytes). -/
theorem witness_ChunksCoverUpToLimit : p0.wf = true ∧ chunkDefined p0 0 = true ∧ chunkDefined p0 4 = true ∧
    chunkDefined { p0 with eePage := 3 } 6 = true ∧ chunkLen { p0 with eePage := 3 } 6 = 2 := by decide

theorem witness_WriteStepStoresChunk : ∀ a ∈ [(0 : BitVec 13), 4], (sWrite a).restartIn = false ∧
    (sWrite a).op = .eeWrite ∧ chunkDefined (sWrite a).cfg (sWrite a).eeAddr.toNat = true := by decide

/-- The mismatching bytes of the chunk at EE_ADDR. -/
def badOf (s : State) : List Nat :=
  (List.range (chunkLen s.cfg s.eeAddr.toNat)).filter fun i =>
    decide (s.ee.read (s.eeAddr.toNat + i) ^^^ s.readError i ≠ s.img.read (s.eeAddr.toNat + i))

/-- One mismatch and none before; none, with one before; in the last chunk and in the first. -/
theorem witness_VerifyToleratesOneMismatch :
    ((sVerify 4 0 []).restartIn = false ∧ (sVerify 4 0 []).op = .eeVerify) ∧
    (chunkDefined p0 4 = true ∧ badOf (sVerify 4 0 [[0, 0, 0, 1]]) = [3] ∧ (sVerify 4 0 []).eeMism.toNat + 1 ≤ 1) ∧
    chunkDefined p0 0 = true ∧ badOf (sVerify 0 1 [[]]) = [] ∧ (sVerify 0 1 []).eeMism.toNat + 0 ≤ 1 := by decide

/-- Two mismatches and none before; one, with one before. -/
theorem witness_VerifyAbortsOnSecondMismatch :
    ((sVerify 0 0 []).restartIn = false ∧ (sVerify 0 0 []).op = .eeVerify ∧ chunkDefined p0 0 = true ∧
      chunkDefined p0 4 = true) ∧
    (badOf (sVerify 0 0 [[0, 1, 1, 1]]) = [1, 2, 3] ∧ 2 ≤ (sVerify 0 0 []).eeMism.toNat + 3) ∧
    badOf (sVerify 4 1 [[1]]) = [0] ∧ 2 ≤ (sVerify 4 1 []).eeMism.toNat + 1 ∧ (sVerify 4 1 []).eeMism.toNat ≤ 1 := by
  decide

/-- The wrong addresses of `VerifyOutcome`. -/
def wrongOf (s : State) (errs : List (List Byte)) : List Nat :=
  (List.range (limit s.cfg)).filter fun a =>
    decide (s.ee.read a ^^^ (errs.getD (a / s.cfg.eePage) []).getD (a % s.cfg.eePage) 0 ≠ s.img.read a)

/-- One wrong address at the end of the range; two, the last byte of the first page and the first of the second (E9). -/
theorem witness_VerifyOutcome : ∀ errs ∈ ([[[], [0, 0, 0, 1]], [[0, 0, 0, 1], [1]]] : List (List (List Byte))),
    (sVerify 0 0 errs).cfg.wf = true ∧ (sVerify 0 0 errs).restartIn = false ∧ (sVerify 0 0 errs).op = .eeVerify ∧
    (sVerify 0 0 errs).eeAddr = 0 ∧ (sVerify 0 0 errs).eeMism = 0 ∧ errs.length = chunkCount (sVerify 0 0 errs).cfg ∧
    (sVerify 0 0 errs).readErrIn = errs ++ [] ∧
    (wrongOf (sVerify 0 0 errs) errs = [7] ∨ wrongOf (sVerify 0 0 errs) errs = [3, 4]) := by decide

theorem witness_BurnLeavesChipLinkAlone :
    (∃ t, (sProbe [true]).op = .eeProbe ∧ step (sProbe [true]) = .next t) ∧
    (∃ t, (sWrite 4).op = .eeWrite ∧ step (sWrite 4) = .next t) ∧
    ∃ t, (sVerify 4 1 [[1]]).op = .eeVerify ∧ step (sVerify 4 1 [[1]]) = .next t :=
  ⟨⟨_, rfl, rfl⟩, ⟨_, rfl, rfl⟩, ⟨_, rfl, rfl⟩⟩

theorem witness_BurnIgnoresBusSelect :
    (∃ t, (sWrite 4).restartIn = false ∧ (sWrite 4).op = .eeWrite ∧ step (sWrite 4) = .next t) ∧
    ∃ t, exec .burn s1 = .next t :=
  ⟨⟨_, rfl, rfl, rfl⟩, ⟨_, rfl⟩⟩

theorem witness_EepromTransactionShapes : (∃ t, (sWrite 4).Inv ∧ step (sWrite 4) = .next t) ∧
    ∃ t, (sVerify 4 1 [[]]).Inv ∧ step (sVerify 4 1 [[]]) = .next t :=
  ⟨⟨_, inv_write, rfl⟩, ⟨_, inv_verify, rfl⟩⟩

theorem witness_EepromWrittenOnlyBelowLimit : (∃ t, (sWrite 4).Inv ∧ step (sWrite 4) = .next t ∧ limit p0 ≤ 8) ∧
    ∃ t, (sNotify 2).Inv ∧ step (sNotify 2) = .next t ∧ (sNotify 2).op ≠ .eeWrite :=
  ⟨⟨_, inv_write, rfl, by decide⟩, ⟨_, inv_notify, rfl, by decide⟩⟩

/-- The last write step of a burn, and a verify step. -/
theorem witness_BurnContentInvariant :
    (∃ t, State.Inv { sWrite 4 with ee := [(0, 0xA5), (3, 0x01)] } ∧
      State.BurnInv { sWrite 4 with ee := [(0, 0xA5), (3, 0x01)] } ∧
      step { sWrite 4 with ee := [(0, 0xA5), (3, 0x01)] } = .next t) ∧
    ∃ t, (sVerify 4 1 [[]]).Inv ∧ (sVerify 4 1 [[]]).BurnInv ∧ step (sVerify 4 1 [[]]) = .next t :=
  ⟨⟨_, by constructor <;> decide, ⟨fun _ => by decide, by decide⟩, rfl⟩,
    ⟨_, inv_verify, ⟨by decide, fun _ => by decide⟩, rfl⟩⟩

theorem witness_FaithfulBurnStoresImage :
    ∃ s : State, s.cfg.wf = true ∧ s.restartIn = false ∧ s.op = .idle ∧ s.imgValid = true ∧ s.cmdIn = [req 0x20] ∧
      decode (.command (req 0x20)) = .ok .burn ∧ s.probeIn = List.replicate 2 false ++ true :: [] ∧
      s.readErrIn = List.replicate (chunkCount s.cfg) [] ++ [] :=
  ⟨{ s1 with cmdIn := [req 0x20], probeIn := [false, false, true], readErrIn := [[], []] },
    rfl, rfl, rfl, rfl, rfl, rfl, rfl, by decide⟩

theorem witness_ToggleBusSwitches : s0.op = .idle ∧ s0.busSel = .onboard ∧
    ({ s0 with busSel := .external } : State).busSel = .external := by decide

theorem witness_RaiseTakesAbortActions : (sNotify 0).op = .xferNotify ∧ (sHeader 0 0 []).op = .xferHeader ∧
    (sData 0 0 0 []).op = .xferData ∧ s0.op = .idle ∧ (sProbe []).op = .eeProbe ∧ (sWrite 0).op = .eeWrite ∧
    (sVerify 0 0 []).op = .eeVerify := by decide

/-- A state with a next state, and one whose operand the host never presents. -/
theorem witness_NoTrapFromInvariant : (∃ t, (sVerify 4 1 [[]]).Inv ∧ step (sVerify 4 1 [[]]) = .next t) ∧
    State.Inv { s0 with cmdIn := [{ cmd := 0x40, imgIn := [(4096, 1)] }] } ∧
    step { s0 with cmdIn := [{ cmd := 0x40, imgIn := [(4096, 1)] }] } = .refused .operandShape :=
  ⟨⟨_, inv_verify, rfl⟩, inv_operand, rfl⟩

theorem witness_ResetMeetsInvariant : p0.wf = true := by decide

theorem witness_StateInvariantKept : (∃ t, (sHeader 7 1 [false]).Inv ∧ step (sHeader 7 1 [false]) = .next t) ∧
    (∃ t, State.Inv { s1 with cmdIn := [req 0x17] } ∧ step { s1 with cmdIn := [req 0x17] } = .next t) ∧
    ∃ t, (sProbe [true]).Inv ∧ step (sProbe [true]) = .next t :=
  ⟨⟨_, inv_header, rfl⟩, ⟨_, inv_s1_select, rfl⟩, ⟨_, inv_probe, rfl⟩⟩

/-- A restart in the middle of a transfer, with no last-used path, with a good file there and with a bad one. -/
theorem witness_RestartKeepsEeprom :
    (∀ p ∈ [none, some [97], some [98]],
      ({ sData 3 4 9 [] with restartIn := true, ee := [(0, 1)], host := host0 p } : State).restartIn = true) ∧
    (loadFile h0 0 true (fileAt (host0 none).files [97])).result = .success ∧
    (loadFile h0 0 true (fileAt (host0 none).files [98])).result ≠ .success := ⟨by decide, rfl, by decide⟩

theorem witness_ParametersNeverChange : ∃ t, step (sNotify 2) = .next t := ⟨_, rfl⟩

/-- A file of a wrong size, one that loads, and one of an accepted size that holds the line of X1 alone. -/
theorem witness_LoaderRejectsFiles : ([58] : List Byte).length ≠ h0.sizeCrlf ∧ ([58] : List Byte).length ≠ h0.sizeLf ∧
    (loadFile h0 0 true (some fileEof)).result = .success ∧ (lineX1 ++ [10]).length = h0.sizeCrlf ∧
    splitLines (detectEol (lineX1 ++ [10])) (lineX1 ++ [10]) = [lineX1, []] ∧ lineX1 = 58 :: lineX1.tail ∧
    ∃ r, decodeRecord lineX1.tail = some r ∧ r.kind = 0 ∧ r.sum = 0 :=
  ⟨by decide, by decide, rfl, by decide, by decide, by decide, _, rfl, by decide, by decide⟩

theorem witness_OnlySuccessIssuesReplaceImage :
    (∃ s : State, (loadFile s.host.params s.host.loads false (fileAt s.host.files [98])).result ≠ .success) ∧
    ∃ s : State, (loadFile s.host.params s.host.loads false (fileAt s.host.files [97])).result = .success :=
  ⟨⟨{ s0 with host := host0 none }, by decide⟩, ⟨{ s0 with host := host0 none }, rfl⟩⟩

/-- The record of X1. -/
def recX1 : HexRecord where
  count := 4
  addr := 0
  kind := 0
  payload := [0x80, 0x40, 0x00, 0x11]
  checksum := 0x2B

theorem witness_RecordLineDecodes : recX1.wf = true ∧ eofRecord.wf = true := by decide

/-- A type-2 record, whole and cut short; an empty record; a wrong checksum; a good record across the end of the staging buffer; a type-1 record, good and
bad. -/
theorem witness_LineChecksInOrder : (({ recX1 with kind := 2 } : HexRecord).wf = true ∧
      ({ recX1 with kind := 2 } : HexRecord).kind ≠ 0 ∧ ({ recX1 with kind := 2 } : HexRecord).kind ≠ 1) ∧
    (({ recX1 with checksum := 0x2A } : HexRecord).wf = true ∧ ({ recX1 with checksum := 0x2A } : HexRecord).sum ≠ 0) ∧
    (({ recX1 with addr := 4094, checksum := 0x1E } : HexRecord).wf = true ∧
      ({ recX1 with addr := 4094, checksum := 0x1E } : HexRecord).sum = 0) ∧
    (eofRecord.wf = true ∧ eofRecord.kind = 1 ∧ eofRecord.sum = 0 ∧ h0.checkEofSum = true ∧
      ({ eofRecord with checksum := 0 } : HexRecord).wf = true ∧ ({ eofRecord with checksum := 0 } : HexRecord).sum ≠ 0) ∧
    (59 : Byte) ≠ 58 ∧ pairAt [48, 48, 48, 48, 48, 48, 48, 50] 3 = some 2 ∧ pairAt [] 3 = none := by decide

/-- One of 32 records of 128 zero bytes. -/
def zeroRecord (k : Nat) : HexRecord where
  count := 128
  addr := 128 * k
  kind := 0
  payload := List.replicate 128 0
  checksum := -(BitVec.ofNat 8 128 + BitVec.ofNat 8 (128 * k / 256) + BitVec.ofNat 8 (128 * k))

theorem sum_zeros (n : Nat) : (List.replicate n (0 : Byte)).foldr (· + ·) 0 = 0 := by
  induction n with
  | zero => rfl
  | succ n ih => rw [List.replicate_succ, List.foldr_cons, ih, add_zero]

theorem witness_LoadRoundTrip : ∀ e : Eol, ∃ (h : HexParams) (rs : List HexRecord),
    (∀ r ∈ rs, r.wf = true ∧ r.kind = 0 ∧ r.sum = 0 ∧ r.addr + r.payload.length ≤ 4096 ∧
      ∀ i, i < r.payload.length → r.payload[i]? = some 0) ∧
    (∀ a, a < 4096 → ∃ r ∈ rs, r.addr ≤ a ∧ a < r.addr + r.payload.length) ∧
    (renderFile e (rs ++ [eofRecord])).length = h.sizeLf := by
  intro e
  refine ⟨{ h0 with sizeLf := (renderFile e ((List.range 32).map zeroRecord ++ [eofRecord])).length },
    (List.range 32).map zeroRecord, ?_, ?_, rfl⟩
  · intro r hr
    obtain ⟨k, hk, rfl⟩ := List.mem_map.mp hr
    rw [List.mem_range] at hk
    refine ⟨?_, rfl, ?_, ?_, ?_⟩
    · simp [zeroRecord, HexRecord.wf]
      omega
    · simp only [HexRecord.sum, zeroRecord, sum_zeros]
      simp
    · simp [zeroRecord]
      omega
    · intro i hi
      rw [show (zeroRecord k).payload = List.replicate 128 0 from rfl, List.length_replicate] at hi
      exact List.getElem?_replicate_of_lt hi
  · intro a ha
    refine ⟨zeroRecord (a / 128), List.mem_map.mpr ⟨a / 128, by rw [List.mem_range]; omega, rfl⟩, ?_, ?_⟩
    · simp [zeroRecord]
      omega
    · simp [zeroRecord]
      omega

end Sys2Proof.Tests
end

section
/-! The codes the host reads: the four tables of codes, and the word STATUS ++ RESULT as a number. -/

namespace Sys2Proof.Machine

theorem op_codes : ([Op.idle, .xferNotify, .xferHeader, .xferData, .eeProbe, .eeWrite, .eeVerify].map
    fun o => o.code.toNat) = [0, 1, 2, 3, 4, 5, 6] := rfl

theorem status_codes : ([Status.ok, .noImage, .invalidIndex, .transferTimeout, .verifyMismatch, .deviceNotPresent,
    .badCommand].map fun c => c.code.toNat) = [0, 1, 2, 3, 4, 5, 6] := rfl

theorem loadResult_codes : ([LoadResult.success, .fileNotFound, .malformedFile, .checksumError].map
    LoadResult.code) = [0, 1, 2, 3] := rfl

/-- RESULT is the lowest bit of the word of R48, below the four bits of STATUS. -/
theorem statusWord_eq_concat (s : State) : statusWord s = s.status.code.concat s.result := rfl

theorem statusWord_toNat (s : State) :
    (statusWord s).toNat = 2 * s.status.code.toNat + (if s.result then 1 else 0) := by
  rw [statusWord_eq_concat, BitVec.toNat_concat, Nat.mul_comm]
  cases s.result
  case false => rfl
  case true => rfl

/-- Settles O60: each table of codes by evaluation, the word of R48 for every state by `statusWord_toNat`. -/
theorem codesOfTheTables : Obligations.CodesOfTheTables :=
  ⟨op_codes, status_codes, rfl, rfl, loadResult_codes, statusWord_toNat⟩

end Sys2Proof.Machine
end

section
/-! The EEPROM: what a write step stores, and that no other step writes EE (section 4 and R76 of 20_memory.md). -/

namespace Sys2Proof.Machine

/-! What a write step stores -/

/-- A chunk inside LIMIT ends at or below LIMIT (R184). -/
theorem chunk_end_le_limit {p : Params} {a : Nat} (h : chunkDefined p a = true) : a + chunkLen p a ≤ limit p := by
  obtain ⟨ha, -⟩ := chunkDefined_iff.mp h
  rw [chunkLen_eq]
  omega

theorem imageChunk_getD {s : State} {a i : Nat} (h : i < chunkLen s.cfg a) (d : Byte) :
    (s.imageChunk a).getD i d = s.img.read (a + i) := by
  simp [State.imageChunk, Memory.readBytes, h]

theorem writeChunk_ee (s : State) :
    s.writeChunk.ee = s.ee.writeBytes s.eeAddr.toNat (s.imageChunk s.eeAddr.toNat) := by
  obtain ⟨-, e⟩ | ⟨-, e⟩ := writeChunk_cases s <;> rw [e, State.eeWrite]

theorem writeChunk_trace (s : State) :
    s.writeChunk.trace = .eeWrite s.eeAddr.toNat (s.imageChunk s.eeAddr.toNat) :: s.trace := by
  obtain ⟨-, e⟩ | ⟨-, e⟩ := writeChunk_cases s <;> rw [e, State.eeWrite]

/-- The EEPROM after a write step (R186): the image's byte inside the chunk, the old byte outside it. -/
theorem writeChunk_ee_read (s : State) (x : Nat) :
    s.writeChunk.ee.read x =
      if s.eeAddr.toNat ≤ x ∧ x < s.eeAddr.toNat + chunkLen s.cfg s.eeAddr.toNat then s.img.read x
      else s.ee.read x := by
  rw [writeChunk_ee, Memory.read_writeBytes, imageChunk_length]
  split
  · next h =>
    obtain ⟨hlo, hhi⟩ := h
    rw [imageChunk_getD (by omega), Nat.add_sub_cancel' hlo]
  · rfl

/-- A write step changes EE, the trace and the position in the burn, nothing else (R186). -/
theorem writeChunk_frame (s : State) :
    s.writeChunk = if s.eeAddr.toNat + chunkLen s.cfg s.eeAddr.toNat = limit s.cfg then
        { s with
          ee := s.writeChunk.ee, trace := s.writeChunk.trace, eeAddr := 0, eeMism := 0, eeMaddr := 0, op := .eeVerify }
      else
        { s with
          ee := s.writeChunk.ee, trace := s.writeChunk.trace
          eeAddr := BitVec.ofNat 13 (s.eeAddr.toNat + chunkLen s.cfg s.eeAddr.toNat) } := by
  rw [writeChunk_ee, writeChunk_trace]
  obtain ⟨hlast, e⟩ | ⟨hlast, e⟩ := writeChunk_cases s
  · rw [if_pos hlast, e, State.eeWrite]
  · rw [if_neg hlast, e, State.eeWrite]

/-- Settles O36: the step of EE_WRITE is `writeChunk`, whose EEPROM content, event and frame are the lemmas above. -/
theorem writeStepStoresChunk : Obligations.WriteStepStoresChunk := by
  intro s hr ho hc
  exact ⟨s.writeChunk, step_write hr ho hc, writeChunk_ee_read s, writeChunk_trace s, writeChunk_frame s⟩

/-! No other step writes the EEPROM -/

section
variable (s : State)

theorem selectStep_transferStart_ee (n : BitVec 4) : (s.selectStep n State.transferStart).ee = s.ee := by
  obtain ⟨-, e⟩ | ⟨-, -, e⟩ | ⟨-, -, e⟩ := selectStep_cases s n State.transferStart <;> rw [e] <;> rfl

theorem notifyWait_ee : s.notifyWait.ee = s.ee := by
  obtain ⟨-, e⟩ | ⟨-, e⟩ := notifyWait_cases s <;> rw [e]

theorem reload_ee (b : Nat) : (s.reload b).ee = s.ee := by
  rw [reload_eq]

theorem headerEdge_ee : s.headerEdge.ee = s.ee := by
  obtain ⟨-, e⟩ | ⟨-, e⟩ := headerEdge_cases s <;> rw [e] <;> rfl

theorem gapEdge_ee : s.gapEdge.ee = s.ee := by
  obtain ⟨-, e⟩ | ⟨-, e⟩ := gapEdge_cases s <;> rw [e] <;> rfl

theorem dataEdge_ee (d : Byte) : (s.dataEdge d).ee = s.ee := by
  obtain ⟨-, e⟩ | ⟨-, e⟩ := dataEdge_cases d s
  · rw [e]
    rfl
  · rw [e, gapEdge_ee]

/-- A polling iteration writes the EEPROM only where its edge action does. -/
theorem poll_ee (b : Nat) {edge : State → State} (h : ∀ u, (edge u).ee = u.ee) : (s.poll b edge).ee = s.ee := by
  obtain ⟨-, e⟩ | ⟨-, -, e⟩ | ⟨-, -, -, e⟩ := poll_cases s b edge
  · rw [e]
    rfl
  · rw [e, State.sampled_ee]
  · rw [e, h, reload_ee, State.sampled_ee]

theorem probe_ee : s.probe.ee = s.ee := by
  obtain ⟨-, e⟩ | ⟨-, e⟩ := probe_cases s <;> rw [e] <;> rfl

theorem verifyChunk_ee : s.verifyChunk.ee = s.ee := by
  obtain ⟨m, d, new, -, ⟨e, -⟩ | ⟨x, e, -⟩⟩ := verifyChunk_cases s
  · rw [e, verifyAdvance_eq]
    rfl
  · rw [e]
    rfl

end

/-- Every move but the write step leaves the whole EEPROM as it is. -/
theorem Move.ee_eq_or_write {s t : State} (m : Move s t) :
    t.ee = s.ee ∨ s.op = .eeWrite ∧ chunkDefined s.cfg s.eeAddr.toNat = true ∧ t = s.writeChunk := by
  cases m with
  | write _ ho hc => exact .inr ⟨ho, hc, rfl⟩
  | restart => exact .inl s.restart_ee
  | select => exact .inl (selectStep_transferStart_ee _ _)
  | notifyRelease => exact .inl s.notifyRelease_ee
  | notifyWait => exact .inl (notifyWait_ee s)
  | header => exact .inl (poll_ee s _ headerEdge_ee)
  | data => exact .inl (poll_ee s _ fun u => dataEdge_ee u _)
  | probe => exact .inl (probe_ee s)
  | verify => exact .inl (verifyChunk_ee s)
  | wait | burn | burnNoImage | toggle | replace | illegal => exact .inl rfl

/-- A write step inside the chunk list leaves every EEPROM byte from LIMIT up (R69). -/
theorem writeChunk_ee_read_of_limit_le {s : State} (hc : chunkDefined s.cfg s.eeAddr.toNat = true) {a : Nat}
    (ha : limit s.cfg ≤ a) : s.writeChunk.ee.read a = s.ee.read a := by
  have hend := chunk_end_le_limit hc
  rw [writeChunk_ee_read, if_neg (by omega)]

/-- Settles O43: only the write step writes EE, and its chunk ends at or below LIMIT. -/
theorem eepromWrittenOnlyBelowLimit : Obligations.EepromWrittenOnlyBelowLimit := by
  intro s t _ e
  obtain hee | ⟨ho, hc, rfl⟩ := (move_of_step e).ee_eq_or_write
  · exact ⟨fun a _ => by rw [hee], fun _ => hee⟩
  · exact ⟨fun a ha => writeChunk_ee_read_of_limit_le hc ha, fun hn => absurd ho hn⟩

end Sys2Proof.Machine
end

section
/-! The wire formats in the frame: the header of R91 in front, then a cell of R92 for each byte of the slot (R93). -/

namespace Sys2Proof.Machine

/-! The header -/

/-- The pattern R91 writes out is the one that R147 drives edge by edge. -/
theorem headerLevels_eq_map : headerLevels = (List.range 37).map fun i => headerLevel (i + 1) := rfl

theorem headerLevel_eq_decide (k : Nat) : headerLevel k = decide (k ∉ [8, 17, 26, 36]) := by
  rw [Bool.eq_iff_iff]
  simp [headerLevel, and_assoc]

theorem headerLevels_getElem? {i : Nat} (h : i < 37) : headerLevels[i]? = some (headerLevel (i + 1)) := by
  rw [headerLevels_eq_map, List.getElem?_map, List.getElem?_range h, Option.map_some]

/-- Up to edge 37 the frame reads neither the image nor the slot (R91). -/
theorem framePart_header (img : Memory) (sel : BitVec 3) {n : Nat} (h : n ≤ 37) :
    framePart img sel n = (List.range n).map fun i => headerLevel (i + 1) := by
  refine List.map_congr_left fun i hi => frameLevel_header ?_
  have := List.mem_range.mp hi
  omega

theorem levelsOfNat_headerWord : levelsOfNat 37 0x1FDFEFF7FD = headerLevels := by decide

/-- Settles O5: the frame's header part is `headerLevel` edge by edge, and so is the pattern R91 writes out. -/
theorem headerIsTheFixedPattern : Obligations.HeaderIsTheFixedPattern := by
  refine ⟨fun img sel => ?_, levelsOfNat_headerWord, fun k => ?_⟩
  · rw [framePart_header img sel le_rfl, headerLevels_eq_map]
  · rw [headerLevels_getElem? k.isLt, headerLevel_eq_decide]

/-! The byte cells -/

/-- A cell is its byte's bits, the most significant first, and the gap (R92). -/
theorem cellLevels_eq_map_concat (d : Byte) :
    cellLevels d = ((List.range 8).map fun j => d.getLsbD (7 - j)) ++ [true] := rfl

/-- Settles O6: the cell's first eight levels by `frameLevel_bit`, the ninth by `frameLevel_gap`. -/
theorem frameCellCarriesByte : Obligations.FrameCellCarriesByte := by
  intro img sel i _
  have hbits : (List.range 8).map (fun j => frameLevel img sel (38 + 9 * i + j)) =
      (List.range 8).map fun j => (img.read (512 * sel.toNat + i)).getLsbD (7 - j) :=
    List.map_congr_left fun j hj => frameLevel_bit img sel (List.mem_range.mp hj)
  rw [List.range_succ, List.map_append, hbits, List.map_singleton, frameLevel_gap, cellLevels_eq_map_concat]

end Sys2Proof.Machine
end

section
/-! The image commands: what REPLACE_IMAGE answers with a 4096-byte operand, and its whole frame (R120). -/

namespace Sys2Proof.Machine

/-- REPLACE_IMAGE writes five fields: no pin, neither the EEPROM nor the trace is among them (R120). -/
theorem replaceImage_eq (s : State) (img : Memory) :
    s.replaceImage img = { s with img := img, imgValid := true, sel := 0, result := true, status := .ok } := rfl

/-- At an idle port a 4096-byte operand is taken (R44, R121). -/
theorem exec_replaceImage_of_wf {s : State} {img : Memory} (ho : s.op = .idle) (hw : Memory.wf imgBytes img = true) :
    exec (.replaceImage img) s = .next (s.replaceImage img) := by
  rw [exec, execReplaceImage, whenIdle_of_idle ho, if_pos hw]

/-- Settles O9: the answer is `s.replaceImage img`, which holds the operand as its image; the frame is
`replaceImage_eq`. -/
theorem replaceImageReplacesWholeImage : Obligations.ReplaceImageReplacesWholeImage := by
  intro s img ho hw
  refine ⟨s.replaceImage img, exec_replaceImage_of_wf ho hw, fun a _ => ?_, ?_⟩
  · rw [State.replaceImage_img]
  · rw [State.replaceImage_img, replaceImage_eq]

end Sys2Proof.Machine
end

section
/-! The program transfer: the acceptance of SELECT (R124, R141), the notify wait and its release (R142, R143), and what
a polling iteration adds to the trace (R144, R145). -/

namespace Sys2Proof.Machine

/-! The acceptance of SELECT -/

/-- SEL keeps the index modulo 8, which is the index itself where R124 takes it. -/
theorem indexSel_eq_ofNat (n : BitVec 4) : indexSel n = BitVec.ofNat 3 n.toNat := (BitVec.ofNat_toNat 3 n).symm

/-- At an idle port with an image loaded, a valid index starts the transfer on its slot (R124, R140). -/
theorem exec_select_of_valid {s : State} {n : BitVec 4} (ho : s.op = .idle) (hv : s.imgValid = true)
    (hn : n.toNat ≤ 7) : exec (.select n) s = .next (State.transferStart { s with sel := indexSel n }) := by
  rw [exec, execSelect, whenIdle_of_idle ho]
  obtain ⟨hbad, -⟩ | ⟨-, hno, -⟩ | ⟨-, -, e⟩ := selectStep_cases s n State.transferStart
  · omega
  · simp [hv] at hno
  · rw [e]

/-- Settles O14: the accepted SELECT is `transferStart` on the selected slot. -/
theorem selectStartsTransfer : Obligations.SelectStartsTransfer := by
  intro s n ho hv hn
  rw [exec_select_of_valid ho hv hn, indexSel_eq_ofNat, State.transferStart]

/-! The notify wait -/

theorem kickDue_iff {p : Params} {k : Nat} : kickDue p k = true ↔ (p.notifyIter - k) % p.wdtNotifyPeriod = 0 := by
  rw [kickDue, beq_iff_eq]

/-- A wait iteration counts down and services the watchdog where it is due, nothing else (R142). -/
theorem notifyWait_eq (s : State) : s.notifyWait = { s with
    clNcnt := s.clNcnt - 1
    trace := if (s.cfg.notifyIter - s.clNcnt) % s.cfg.wdtNotifyPeriod = 0 then .wdtKick :: s.trace else s.trace } := by
  obtain ⟨hdue, e⟩ | ⟨hdue, e⟩ := notifyWait_cases s
  · rw [e, if_pos (kickDue_iff.mp hdue)]
  · rw [e, if_neg fun h => Bool.eq_false_iff.mp hdue (kickDue_iff.mpr h)]

/-- Settles O15: the step of XFER_NOTIFY waits or releases as CL_NCNT says. -/
theorem notifyWaitAndRelease : Obligations.NotifyWaitAndRelease := by
  intro s hr ho
  refine ⟨fun hn => ?_, fun hn => ?_⟩
  · rw [step_notify hr ho, if_neg (by omega), notifyWait_eq]
  · rw [step_notify hr ho, if_pos hn, State.notifyRelease]

/-! What a polling iteration adds to the trace -/

/-- An edge action drives one level, and that is all the trace shows of it (R147, R150, R151). -/
def DrivesOneLevel (edge : State → State) : Prop := ∀ u, ∃ v, (edge u).trace = .tx v :: u.trace

theorem drivesOneLevel_headerEdge : DrivesOneLevel State.headerEdge := by
  intro u
  obtain ⟨-, e⟩ | ⟨-, e⟩ := headerEdge_cases u
  · exact ⟨_, by rw [e, State.drive_trace]⟩
  · exact ⟨true, by rw [e, State.enterData_trace, State.drive_trace]⟩

theorem drivesOneLevel_gapEdge : DrivesOneLevel State.gapEdge := by
  intro u
  obtain ⟨-, e⟩ | ⟨-, e⟩ := gapEdge_cases u
  · exact ⟨true, by rw [e, State.drive_trace]⟩
  · exact ⟨true, by rw [e, State.finish_trace, State.drive_trace]⟩

theorem drivesOneLevel_dataEdge (d : Byte) : DrivesOneLevel (State.dataEdge d) := by
  intro u
  obtain ⟨-, e⟩ | ⟨-, e⟩ := dataEdge_cases d u
  · exact ⟨_, by rw [e, State.drive_trace]⟩
  · rw [e]
    exact drivesOneLevel_gapEdge u

/-- Within the budget: the watchdog service, directly after it the sample, and behind these nothing but driven levels
(R144, R145). -/
theorem poll_trace_of_budget {s : State} {b : Nat} {edge : State → State} (hedge : DrivesOneLevel edge)
    (hpos : 0 < s.clTmo) :
    ∃ vs : List Level, (s.poll b edge).trace = vs.map .tx ++ .clkSample s.clkLevel :: .wdtKick :: s.trace := by
  obtain ⟨hz, -⟩ | ⟨-, -, e⟩ | ⟨-, -, -, e⟩ := poll_cases s b edge
  · omega
  · exact ⟨[], by rw [e, State.sampled_trace]; rfl⟩
  · obtain ⟨v, hv⟩ := hedge (s.sampled.reload b)
    exact ⟨[v], by rw [e, hv, reload_eq]; rfl⟩

/-- With the budget exhausted the report of the timeout is all there is (R152). -/
theorem poll_trace_of_exhausted {s : State} (b : Nat) (edge : State → State) (hz : s.clTmo = 0) :
    (s.poll b edge).trace = .failure .transferTimeout none :: s.trace := by
  rw [State.poll, if_pos hz, State.raise_trace]

/-- Driven levels are neither watchdog services nor samples. -/
theorem counts_of_levels (vs : List Level) (r : List Event) :
    kickCount (vs.map .tx ++ r) = kickCount r ∧ sampleCount (vs.map .tx ++ r) = sampleCount r := by
  induction vs with
  | nil => exact ⟨rfl, rfl⟩
  | cons v vs ih => simpa using ih

theorem polling_iff {o : Op} : o.polling = true ↔ o = .xferHeader ∨ o = .xferData := by
  cases o <;> simp [Op.polling]

/-- A step of a polling phase is one polling iteration (R144, R157). -/
theorem poll_of_step {s t : State} (hr : s.restartIn = false) (hp : s.op.polling = true) (e : step s = .next t) :
    ∃ b edge, DrivesOneLevel edge ∧ t = s.poll b edge := by
  obtain ho | ho := polling_iff.mp hp
  · rw [step_header hr ho] at e
    cases e
    exact ⟨_, _, drivesOneLevel_headerEdge, rfl⟩
  · rw [step_data hr ho] at e
    cases e
    exact ⟨_, _, drivesOneLevel_dataEdge _, rfl⟩

/-- Settles O24: the trace of the one polling iteration by its budget, counted event by event. -/
theorem watchdogServicedEveryPoll : Obligations.WatchdogServicedEveryPoll := by
  intro s t hr hp e
  obtain ⟨b, edge, hedge, rfl⟩ := poll_of_step hr hp e
  refine ⟨fun hpos => ?_, fun hz => ?_⟩
  · obtain ⟨vs, htr⟩ := poll_trace_of_budget (b := b) hedge hpos
    obtain ⟨hk, hc⟩ := counts_of_levels vs (.clkSample s.clkLevel :: .wdtKick :: s.trace)
    exact ⟨vs.map .tx, htr, by rw [htr, hk]; simp, by rw [htr, hc]; simp⟩
  · simp [poll_trace_of_exhausted b edge hz]

end Sys2Proof.Machine
end

section
/-! TOGGLE_BUS and SetBus (42_eeprom_programmer.md section 6). -/

namespace Sys2Proof.Machine

theorem setBus_eq (s : State) (b : BusSel) : s.setBus b = { s with busSel := b, busPin := s.cfg.busPins b } := rfl

/-- The second SetBus writes what the first has written: BUS_PINS is read from the parameters, which stay. -/
theorem setBus_setBus (s : State) (b : BusSel) : (s.setBus b).setBus b = s.setBus b := by
  rw [setBus_eq (s.setBus b) b, State.setBus_cfg, setBus_eq]

/-- Settles O47: what SetBus writes, and that writing it again changes nothing. -/
theorem setBusIsIdempotent : Obligations.SetBusIsIdempotent :=
  fun s b => ⟨setBus_eq s b, setBus_setBus s b⟩

/-- TOGGLE_BUS of an idle block (R205). -/
theorem exec_toggleBus_of_idle {s : State} (ho : s.op = .idle) :
    exec .toggleBus s = .next ((s.setBus s.busSel.other).complete (onboardFlag s.busSel.other)) := by
  rw [exec, execToggleBus, whenIdle_of_idle ho]

/-- Settles O46: `exec_toggleBus_of_idle` in each of the two bus states. -/
theorem toggleBusSwitches : Obligations.ToggleBusSwitches := by
  intro s ho
  rw [exec_toggleBus_of_idle ho]
  refine ⟨fun hb => ?_, fun hb => ?_⟩
  · rw [hb, BusSel.other, setBus_eq, State.complete, onboardFlag]
  · rw [hb, BusSel.other, setBus_eq, State.complete, onboardFlag]

end Sys2Proof.Machine
end

section
/-! The verification as a function of the wrong addresses (R187, R188): the comparison of one page read, the page reads
one after another, the outcome. -/

namespace Sys2Proof.Machine

/-! The comparison of consecutive addresses -/

/-- EE_MISM and EE_MADDR record the wrong addresses found so far, of which a running verification has at most one
(R187). -/
inductive Recorded : BitVec 2 → BitVec 12 → List Nat → Prop
  | none (d : BitVec 12) : Recorded 0 d []
  | one (a : Nat) : Recorded 1 (BitVec.ofNat 12 a) [a]

theorem Recorded.mism_toNat {m : BitVec 2} {d : BitVec 12} {seen : List Nat} (h : Recorded m d seen) :
    m.toNat = seen.length := by
  cases h with
  | none => rfl
  | one => rfl

theorem Recorded.maddr_toNat {m : BitVec 2} {d : BitVec 12} {seen : List Nat} (h : Recorded m d seen)
    {a : Nat} (ha : a ∈ seen) (hlt : a < 4096) : d.toNat = a := by
  cases h with
  | none => simp at ha
  | one b =>
    obtain rfl := List.mem_singleton.mp ha
    rw [BitVec.toNat_ofNat, Nat.mod_eq_of_lt hlt]

/-- The addresses of `n` consecutive bytes from `a` on at which the byte read, `f x` second, is not the one expected. -/
def differing (f : Nat → Byte × Byte) (a n : Nat) : List Nat :=
  (List.range' a n).filter fun x => decide ((f x).2 ≠ (f x).1)

theorem differing_succ_of_eq {f : Nat → Byte × Byte} {a : Nat} (n : Nat) (h : (f a).2 = (f a).1) :
    differing f a (n + 1) = differing f (a + 1) n := by
  simp [differing, List.range'_succ, h]

theorem differing_succ_of_ne {f : Nat → Byte × Byte} {a : Nat} (n : Nat) (h : (f a).2 ≠ (f a).1) :
    differing f a (n + 1) = a :: differing f (a + 1) n := by
  simp [differing, List.range'_succ, h]

/-- The comparison of equal bytes at the front of consecutive addresses. -/
theorem compare_range'_succ_of_eq (s : State) {f : Nat → Byte × Byte} {a : Nat} (n : Nat) (h : (f a).2 = (f a).1) :
    s.compare a ((List.range' a (n + 1)).map f) = s.compare (a + 1) ((List.range' (a + 1) n).map f) := by
  have hf : f a = ((f a).1, (f a).1) := Prod.ext rfl h
  rw [List.range'_succ, List.map_cons, hf, compare_cons_eq]

/-- With at most one wrong address, found before or here, the comparison goes through and records it (R187). -/
theorem compare_passes {f : Nat → Byte × Byte} {n : Nat} : ∀ {s : State} {a : Nat} {seen : List Nat},
    Recorded s.eeMism s.eeMaddr seen → (seen ++ differing f a n).length ≤ 1 →
    ∃ m d tr, s.compare a ((List.range' a n).map f) = ({ s with eeMism := m, eeMaddr := d, trace := tr }, false) ∧
      Recorded m d (seen ++ differing f a n) := by
  induction n with
  | zero =>
    intro s a seen h _
    exact ⟨s.eeMism, s.eeMaddr, s.trace, rfl, by simpa [differing] using h⟩
  | succ n ih =>
    intro s a seen h hle
    by_cases he : (f a).2 = (f a).1
    · rw [differing_succ_of_eq n he] at hle ⊢
      rw [compare_range'_succ_of_eq s n he]
      exact ih h hle
    · rw [differing_succ_of_ne n he] at hle ⊢
      obtain rfl : seen = [] := List.eq_nil_of_length_eq_zero (by simp at hle; omega)
      have hm : s.eeMism = 0 := BitVec.eq_of_toNat_eq h.mism_toNat
      rw [List.range'_succ, List.map_cons, compare_cons_first _ he hm]
      exact ih (seen := [a]) (.one a) hle

/-- The second wrong address, the first found before or here, aborts the comparison (R187). -/
theorem compare_aborts {f : Nat → Byte × Byte} {a₁ a₂ : Nat} {more : List Nat} {n : Nat} :
    ∀ {s : State} {a : Nat} {seen : List Nat},
    Recorded s.eeMism s.eeMaddr seen → seen ++ differing f a n = a₁ :: a₂ :: more →
    ∃ tr, s.compare a ((List.range' a n).map f) =
      (State.raise { s with eeMism := 2, eeMaddr := BitVec.ofNat 12 a₁, trace := tr } .verifyMismatch (some a₂), true) := by
  induction n with
  | zero =>
    intro s a seen h hw
    generalize s.eeMism = m, s.eeMaddr = d at h
    cases h with
    | none => simp [differing] at hw
    | one => simp [differing] at hw
  | succ n ih =>
    intro s a seen h hw
    by_cases he : (f a).2 = (f a).1
    · rw [differing_succ_of_eq n he] at hw
      rw [compare_range'_succ_of_eq s n he]
      exact ih h hw
    · rw [differing_succ_of_ne n he] at hw
      rw [List.range'_succ, List.map_cons]
      generalize hm : s.eeMism = m, hd : s.eeMaddr = d at h
      cases h with
      | none =>
        rw [compare_cons_first _ he hm]
        exact ih (seen := [a]) (.one a) hw
      | one b =>
        rw [compare_cons_second _ he (by simp [hm]), hm]
        obtain ⟨rfl, rfl, -⟩ : b = a₁ ∧ a = a₂ ∧ _ := by simpa using hw
        exact ⟨s.trace, by rw [← hd]; rfl⟩

/-! A verify step, by what its comparison does -/

theorem verifyChunk_of_passes {s u : State}
    (h : (s.takeRead s.eeAddr.toNat (chunkLen s.cfg s.eeAddr.toNat)).compare s.eeAddr.toNat
      ((s.imageChunk s.eeAddr.toNat).zip (s.readAnswer s.eeAddr.toNat (chunkLen s.cfg s.eeAddr.toNat))) = (u, false)) :
    s.verifyChunk = u.verifyAdvance (s.eeAddr.toNat + chunkLen s.cfg s.eeAddr.toNat) := by
  simp only [State.verifyChunk, h]

theorem verifyChunk_of_aborts {s u : State}
    (h : (s.takeRead s.eeAddr.toNat (chunkLen s.cfg s.eeAddr.toNat)).compare s.eeAddr.toNat
      ((s.imageChunk s.eeAddr.toNat).zip (s.readAnswer s.eeAddr.toNat (chunkLen s.cfg s.eeAddr.toNat))) = (u, true)) :
    s.verifyChunk = u := by
  simp only [State.verifyChunk, h]

theorem verifyAdvance_of_ne {s : State} {a : Nat} (h : a ≠ limit s.cfg) :
    s.verifyAdvance a = { s with eeAddr := BitVec.ofNat 13 a } := by
  simp [verifyAdvance_eq, h]

theorem verifyAdvance_of_eq {s : State} {a : Nat} (h : a = limit s.cfg) :
    s.verifyAdvance a = { s with eeAddr := BitVec.ofNat 13 a, op := .idle, result := true, status := .ok } := by
  simp [verifyAdvance_eq, h]

/-! The pages of [0, LIMIT) -/

/-- The address at which page `k` begins, LIMIT from the end of the last one on (R184). -/
def pageStart (p : Params) (k : Nat) : Nat := min (k * p.eePage) (limit p)

section
variable {p : Params} (hp : 1 ≤ p.eePage)
include hp

theorem lt_chunkCount_iff {k : Nat} : k < chunkCount p ↔ k * p.eePage < limit p := by
  rw [chunkCount, Nat.lt_iff_add_one_le, Nat.le_div_iff_mul_le hp, Nat.add_mul]
  omega

theorem pageStart_eq_mul {k : Nat} (hk : k < chunkCount p) : pageStart p k = k * p.eePage :=
  Nat.min_eq_left ((lt_chunkCount_iff hp).mp hk).le

theorem pageStart_lt_limit {k : Nat} (hk : k < chunkCount p) : pageStart p k < limit p := by
  rw [pageStart_eq_mul hp hk]
  exact (lt_chunkCount_iff hp).mp hk

theorem pageStart_chunkCount : pageStart p (chunkCount p) = limit p :=
  Nat.min_eq_right (Nat.le_of_not_lt fun h => (Nat.lt_irrefl _) ((lt_chunkCount_iff hp).mpr h))

theorem chunkDefined_pageStart {k : Nat} (hk : k < chunkCount p) : chunkDefined p (pageStart p k) = true :=
  chunkDefined_iff.mpr ⟨pageStart_lt_limit hp hk, by rw [pageStart_eq_mul hp hk, Nat.mul_mod_left]⟩

theorem pageStart_add_chunkLen {k : Nat} (hk : k < chunkCount p) :
    pageStart p k + chunkLen p (pageStart p k) = pageStart p (k + 1) := by
  have hlt := (lt_chunkCount_iff hp).mp hk
  rw [pageStart_eq_mul hp hk, chunkLen_eq, pageStart, Nat.add_mul, Nat.one_mul]
  omega

end

/-! The wrong addresses -/

/-- The byte expected at `x` and the one a verification from `s` reads there, `errs` holding the wrong bits of each page
read (R76, R187; log entry 4). -/
def verifyPair (s : State) (errs : List (List Byte)) (x : Nat) : Byte × Byte :=
  (s.img.read x, s.ee.read x ^^^ (errs.getD (x / s.cfg.eePage) []).getD (x % s.cfg.eePage) 0)

/-- The wrong addresses below `n`. -/
def wrongBelow (s : State) (errs : List (List Byte)) (n : Nat) : List Nat := differing (verifyPair s errs) 0 n

theorem wrongBelow_eq_filter_range (s : State) (errs : List (List Byte)) (n : Nat) :
    wrongBelow s errs n = (List.range n).filter fun a =>
      decide (s.ee.read a ^^^ (errs.getD (a / s.cfg.eePage) []).getD (a % s.cfg.eePage) 0 ≠ s.img.read a) := by
  rw [List.range_eq_range']
  rfl

theorem lt_of_mem_wrongBelow {s : State} {errs : List (List Byte)} {n a : Nat} (h : a ∈ wrongBelow s errs n) : a < n := by
  rw [wrongBelow_eq_filter_range] at h
  exact List.mem_range.mp (List.mem_of_mem_filter h)

theorem wrongBelow_add (s : State) (errs : List (List Byte)) (a n : Nat) :
    wrongBelow s errs (a + n) = wrongBelow s errs a ++ differing (verifyPair s errs) a n := by
  simp [wrongBelow, differing, ← List.range'_append_1, List.filter_append]

theorem wrongBelow_pageStart_succ {s : State} (errs : List (List Byte)) {k : Nat} (hp : 1 ≤ s.cfg.eePage)
    (hk : k < chunkCount s.cfg) : wrongBelow s errs (pageStart s.cfg (k + 1)) =
      wrongBelow s errs (pageStart s.cfg k) ++
        differing (verifyPair s errs) (pageStart s.cfg k) (chunkLen s.cfg (pageStart s.cfg k)) := by
  rw [← pageStart_add_chunkLen hp hk, wrongBelow_add]

/-- The wrong addresses below a bound come first among those below a greater one. -/
theorem wrongBelow_split (s : State) (errs : List (List Byte)) {n n' : Nat} (h : n ≤ n') :
    ∃ later, wrongBelow s errs n' = wrongBelow s errs n ++ later ∧ ∀ a ∈ later, n ≤ a := by
  obtain ⟨k, rfl⟩ := Nat.exists_eq_add_of_le h
  refine ⟨_, wrongBelow_add s errs n k, fun a ha => ?_⟩
  exact (List.mem_range'_1.mp (List.mem_of_mem_filter ha)).1

theorem wrongBelow_length_mono (s : State) (errs : List (List Byte)) {n n' : Nat} (h : n ≤ n') :
    (wrongBelow s errs n).length ≤ (wrongBelow s errs n').length := by
  obtain ⟨later, e, -⟩ := wrongBelow_split s errs h
  rw [e, List.length_append]
  exact Nat.le_add_right _ _

section
variable {s : State} {errs : List (List Byte)} {n n' a₁ a₂ : Nat} {more : List Nat} (h : n ≤ n')
  (hw : wrongBelow s errs n' = a₁ :: a₂ :: more)
include h hw

/-- At most one address is wrong below the second wrong one. -/
theorem wrongBelow_length_le_one (ha : n ≤ a₂) : (wrongBelow s errs n).length ≤ 1 := by
  obtain ⟨later, e, -⟩ := wrongBelow_split s errs h
  rw [hw] at e
  match hx : wrongBelow s errs n, e with
  | [], _ => exact Nat.zero_le 1
  | [_], _ => exact Nat.le_refl 1
  | x :: y :: _, e =>
    obtain ⟨-, rfl, -⟩ : a₁ = x ∧ a₂ = y ∧ _ := by simpa using e
    exact absurd (lt_of_mem_wrongBelow (n := n) (by rw [hx]; simp)) (Nat.not_lt.mpr ha)

/-- A bound above the second wrong address has the same first two wrong addresses below it. -/
theorem wrongBelow_eq_cons_cons (ha : a₂ < n) : ∃ more', wrongBelow s errs n = a₁ :: a₂ :: more' := by
  obtain ⟨later, e, hlater⟩ := wrongBelow_split s errs h
  rw [hw] at e
  have hnot : a₂ ∉ later := fun hm => Nat.not_le.mpr ha (hlater a₂ hm)
  match wrongBelow s errs n, e with
  | [], e =>
    obtain rfl : a₁ :: a₂ :: more = later := e
    simp at hnot
  | [_], e =>
    obtain ⟨-, rfl⟩ : _ ∧ a₂ :: more = later := by simpa using e
    simp at hnot
  | x :: y :: l, e =>
    obtain ⟨rfl, rfl, -⟩ : a₁ = x ∧ a₂ = y ∧ _ := by simpa using e
    exact ⟨l, rfl⟩

end

/-! The page reads of a verification -/

/-- What holds of `t`, reached from the start `s` of a verification by the first `k` page reads, when it is still
running: the next page is due, and what is wrong below it is recorded. -/
structure AtPage (s : State) (errs rest : List (List Byte)) (k : Nat) (t : State) : Prop where
  cfg : t.cfg = s.cfg
  img : t.img = s.img
  ee : t.ee = s.ee
  running : t.restartIn = false
  op : t.op = .eeVerify
  addr : t.eeAddr.toNat = pageStart s.cfg k
  errors : t.readErrIn = errs.drop k ++ rest
  recorded : Recorded t.eeMism t.eeMaddr (wrongBelow s errs (pageStart s.cfg k))

section
variable {s t : State} {errs rest : List (List Byte)} {k : Nat}

theorem atPage_zero (hr : s.restartIn = false) (ho : s.op = .eeVerify) (ha : s.eeAddr = 0) (hm : s.eeMism = 0)
    (he : s.readErrIn = errs ++ rest) : AtPage s errs rest 0 s where
  cfg := rfl
  img := rfl
  ee := rfl
  running := hr
  op := ho
  addr := by simp [ha, pageStart]
  errors := he
  recorded := by
    rw [hm]
    simpa [pageStart, wrongBelow, differing] using Recorded.none s.eeMaddr

variable (hp : 1 ≤ s.cfg.eePage) (hl : errs.length = chunkCount s.cfg) (hk : k < chunkCount s.cfg)
  (h : AtPage s errs rest k t)
include hl hk h

/-- The wrong bits of the next page read are those that `errs` holds for page `k`. -/
theorem AtPage.readError_eq (i : Nat) : t.readError i = (errs.getD k []).getD i 0 := by
  have hlt : k < errs.length := by omega
  rw [State.readError, h.errors, List.drop_eq_getElem_cons hlt, List.getD_eq_getElem _ _ hlt]
  rfl

include hp
omit hl

theorem AtPage.step_eq : step t = .next t.verifyChunk :=
  step_verify h.running h.op (by rw [h.cfg, h.addr]; exact chunkDefined_pageStart hp hk)

include hl

/-- The pairs the next verify step compares are those of its addresses. -/
theorem AtPage.pairs_eq : (t.imageChunk t.eeAddr.toNat).zip (t.readAnswer t.eeAddr.toNat (chunkLen t.cfg t.eeAddr.toNat)) =
    (List.range' (pageStart s.cfg k) (chunkLen s.cfg (pageStart s.cfg k))).map (verifyPair s errs) := by
  rw [verify_pairs, h.addr, h.cfg, List.range'_eq_map_range, List.map_map]
  refine List.map_congr_left fun i hi => ?_
  have hi : i < s.cfg.eePage := by
    have := List.mem_range.mp hi
    rw [chunkLen_eq] at this
    omega
  have hdiv : (k * s.cfg.eePage + i) / s.cfg.eePage = k := by
    rw [Nat.mul_comm, Nat.mul_add_div hp, Nat.div_eq_of_lt hi, Nat.add_zero]
  have hmod : (k * s.cfg.eePage + i) % s.cfg.eePage = i := by
    rw [Nat.mul_comm, Nat.mul_add_mod, Nat.mod_eq_of_lt hi]
  rw [h.img, h.ee, h.readError_eq hl hk, pageStart_eq_mul hp hk, Function.comp, verifyPair, hdiv, hmod]

/-- A page read after which at most one address was wrong goes through. -/
theorem AtPage.step_passes (hle : (wrongBelow s errs (pageStart s.cfg (k + 1))).length ≤ 1) :
    ∃ m d tr, step t = .next (State.verifyAdvance
        { t.takeRead t.eeAddr.toNat (chunkLen t.cfg t.eeAddr.toNat) with eeMism := m, eeMaddr := d, trace := tr }
        (pageStart s.cfg (k + 1))) ∧
      Recorded m d (wrongBelow s errs (pageStart s.cfg (k + 1))) := by
  rw [wrongBelow_pageStart_succ errs hp hk] at hle ⊢
  obtain ⟨m, d, tr, e, hrec⟩ := compare_passes
    (s := t.takeRead t.eeAddr.toNat (chunkLen t.cfg t.eeAddr.toNat)) h.recorded hle
  rw [← h.pairs_eq hp hl hk, ← h.addr] at e
  refine ⟨m, d, tr, ?_, hrec⟩
  rw [h.step_eq hp hk, verifyChunk_of_passes e, h.cfg, h.addr, pageStart_add_chunkLen hp hk]

/-- The page read in which the second wrong address lies aborts the verification. -/
theorem AtPage.step_aborts {a₁ a₂ : Nat} {more : List Nat}
    (hw : wrongBelow s errs (pageStart s.cfg (k + 1)) = a₁ :: a₂ :: more) :
    ∃ tr, step t = .next (State.raise
        { t.takeRead t.eeAddr.toNat (chunkLen t.cfg t.eeAddr.toNat) with
          eeMism := 2, eeMaddr := BitVec.ofNat 12 a₁, trace := tr }
        .verifyMismatch (some a₂)) := by
  rw [wrongBelow_pageStart_succ errs hp hk] at hw
  obtain ⟨tr, e⟩ := compare_aborts
    (s := t.takeRead t.eeAddr.toNat (chunkLen t.cfg t.eeAddr.toNat)) h.recorded hw
  rw [← h.pairs_eq hp hl hk, ← h.addr] at e
  exact ⟨tr, by rw [h.step_eq hp hk, verifyChunk_of_aborts e]⟩

/-- A page read that goes through, before the last one, leads to the next page. -/
theorem AtPage.step_next (hk' : k + 1 < chunkCount s.cfg)
    (hle : (wrongBelow s errs (pageStart s.cfg (k + 1))).length ≤ 1) :
    ∃ u, step t = .next u ∧ AtPage s errs rest (k + 1) u := by
  obtain ⟨m, d, tr, e, hrec⟩ := h.step_passes hp hl hk hle
  have hlt := pageStart_lt_limit hp hk'
  have hbound := limit_le_image s.cfg
  rw [verifyAdvance_of_ne (h.cfg.symm ▸ hlt.ne)] at e
  refine ⟨_, e, ⟨h.cfg, h.img, h.ee, h.running, h.op, ?_, ?_, hrec⟩⟩
  · rw [BitVec.toNat_ofNat, Nat.mod_eq_of_lt (by omega)]
  · rw [State.takeRead_readErrIn, h.errors, List.drop_eq_getElem_cons (by omega : k < errs.length)]
    rfl

end

section
variable {s : State} {errs rest : List (List Byte)} (hp : 1 ≤ s.cfg.eePage) (hl : errs.length = chunkCount s.cfg)
  (h0 : AtPage s errs rest 0 s)
include hp hl h0

/-- While at most one address is wrong the verification goes on, page read by page read. -/
theorem run_atPage {k : Nat} (hk : k < chunkCount s.cfg) (hle : (wrongBelow s errs (pageStart s.cfg k)).length ≤ 1) :
    ∃ t, Host.Core.run Sys2Proof.core k s = .next t ∧ AtPage s errs rest k t := by
  induction k with
  | zero => exact ⟨s, rfl, h0⟩
  | succ k ih =>
    have hmono : pageStart s.cfg k ≤ pageStart s.cfg (k + 1) := by
      rw [← pageStart_add_chunkLen hp (by omega)]
      exact Nat.le_add_right _ _
    obtain ⟨t, e, ht⟩ := ih (by omega) ((wrongBelow_length_mono s errs hmono).trans hle)
    obtain ⟨u, eu, hu⟩ := ht.step_next hp hl (by omega) hk hle
    exact ⟨u, by rw [run_add e, run_succ_next eu]; rfl, hu⟩

/-- With at most one wrong address the verification ends after all page reads (R188). -/
theorem run_verify_passes (hpos : 0 < limit s.cfg) (hle : (wrongBelow s errs (limit s.cfg)).length ≤ 1) :
    ∃ t, Host.Core.run Sys2Proof.core (chunkCount s.cfg) s = .next t ∧ t.op = .idle ∧ t.result = true ∧
      t.status = .ok ∧ Recorded t.eeMism t.eeMaddr (wrongBelow s errs (limit s.cfg)) := by
  have hc : 0 < chunkCount s.cfg := (lt_chunkCount_iff hp).mpr (by omega)
  obtain ⟨k, hk⟩ : ∃ k, chunkCount s.cfg = k + 1 := ⟨chunkCount s.cfg - 1, by omega⟩
  have hlast : pageStart s.cfg (k + 1) = limit s.cfg := hk ▸ pageStart_chunkCount hp
  have hkl : k < chunkCount s.cfg := by omega
  obtain ⟨t, e, ht⟩ := run_atPage hp hl h0 hkl
    ((wrongBelow_length_mono s errs (pageStart_lt_limit hp hkl).le).trans hle)
  obtain ⟨m, d, tr, eu, hrec⟩ := ht.step_passes hp hl hkl (hlast.symm ▸ hle)
  rw [verifyAdvance_of_eq (ht.cfg.symm ▸ hlast)] at eu
  exact ⟨_, by rw [hk, run_add e, run_succ_next eu]; rfl, rfl, rfl, rfl, hlast ▸ hrec⟩

/-- With a second wrong address the verification ends after the page read in which that address lies (R188). -/
theorem run_verify_aborts {a₁ a₂ : Nat} {more : List Nat} (hw : wrongBelow s errs (limit s.cfg) = a₁ :: a₂ :: more) :
    ∃ t, Host.Core.run Sys2Proof.core (a₂ / s.cfg.eePage + 1) s = .next t ∧ t.op = .idle ∧ t.result = false ∧
      t.status = .verifyMismatch ∧ t.eeMism = 2 ∧ t.eeMaddr = BitVec.ofNat 12 a₁ ∧
      t.trace.head? = some (.failure .verifyMismatch (some a₂)) := by
  have ha₂ : a₂ < limit s.cfg := lt_of_mem_wrongBelow (s := s) (errs := errs) (by rw [hw]; simp)
  have hfrom : a₂ / s.cfg.eePage * s.cfg.eePage ≤ a₂ := Nat.div_mul_le_self _ _
  have hto : a₂ < (a₂ / s.cfg.eePage + 1) * s.cfg.eePage := Nat.lt_mul_of_div_lt (Nat.lt_succ_self _) hp
  have hk : a₂ / s.cfg.eePage < chunkCount s.cfg := (lt_chunkCount_iff hp).mpr (by omega)
  have hstart : pageStart s.cfg (a₂ / s.cfg.eePage) ≤ a₂ := by rw [pageStart_eq_mul hp hk]; exact hfrom
  have hend : a₂ < pageStart s.cfg (a₂ / s.cfg.eePage + 1) := Nat.lt_min.mpr ⟨hto, ha₂⟩
  obtain ⟨t, e, ht⟩ := run_atPage hp hl h0 hk (wrongBelow_length_le_one (pageStart_lt_limit hp hk).le hw hstart)
  obtain ⟨more', hw'⟩ := wrongBelow_eq_cons_cons (Nat.min_le_right _ _) hw hend
  obtain ⟨tr, eu⟩ := ht.step_aborts hp hl hk hw'
  exact ⟨_, by rw [run_add e, run_succ_next eu]; rfl, rfl, rfl, rfl, rfl, rfl, rfl⟩

end

/-- Settles O39: the wrong addresses are `wrongBelow` LIMIT; the two outcomes are `run_verify_passes` and
`run_verify_aborts`. -/
theorem verifyOutcome : Obligations.VerifyOutcome := by
  intro s errs rest hcfg hr ho ha hm hl he wrong hwrong
  rw [← wrongBelow_eq_filter_range] at hwrong
  subst hwrong
  obtain ⟨-, -, -, -, hp, hcap⟩ := params_wf_iff.mp hcfg
  have h0 : AtPage s errs rest 0 s := atPage_zero hr ho ha hm he
  have hbound : ∀ a ∈ wrongBelow s errs (limit s.cfg), a < 4096 := fun a hmem =>
    (lt_of_mem_wrongBelow hmem).trans_le (limit_le_image s.cfg)
  constructor
  · intro hle
    obtain ⟨t, e, hop, hres, hst, hrec⟩ := run_verify_passes hp hl h0 (by rw [limit_eq]; omega) hle
    exact ⟨t, e, hop, hres, hst, hrec.mism_toNat, fun a hmem => hrec.maddr_toNat hmem (hbound a hmem)⟩
  · intro hge
    match hw : wrongBelow s errs (limit s.cfg), hge with
    | a₁ :: a₂ :: more, _ =>
      obtain ⟨t, e, hop, hres, hst, hmism, hmaddr, htr⟩ := run_verify_aborts hp hl h0 hw
      refine ⟨t, a₁, a₂, rfl, rfl, e, hop, hres, hst, hmism, ?_, htr⟩
      rw [hmaddr, BitVec.toNat_ofNat, Nat.mod_eq_of_lt (hbound a₁ (by rw [hw]; simp))]

end Sys2Proof.Machine
end

section
/-! Failures: the abort actions of `raise` by phase (R262), and the two refusals of the acceptance step, InvalidIndex
before NoImage (R251, R252). -/

namespace Sys2Proof.Machine

/-! The abort actions -/

theorem inTransfer_iff {o : Op} : o.inTransfer = true ↔ o = .xferNotify ∨ o = .xferHeader ∨ o = .xferData := by
  cases o <;> simp [Op.inTransfer]

theorem inTransfer_eq_false_iff {o : Op} :
    o.inTransfer = false ↔ o = .idle ∨ o = .eeProbe ∨ o = .eeWrite ∨ o = .eeVerify := by
  cases o <;> simp [Op.inTransfer]

/-- A failure inside a transfer drives both lines high and releases the lock (R262). -/
theorem raise_of_inTransfer {s : State} (h : s.op.inTransfer = true) (st : Status) (info : Option Nat) :
    s.raise st info = { s with
      sda := true, notifyN := true, irqLock := false, result := false, status := st,
      trace := .failure st info :: s.trace, op := .idle } := by
  simp only [State.raise, h, if_true]

/-- A failure outside a transfer leaves the lines and the lock as they are (R262). -/
theorem raise_of_not_inTransfer {s : State} (h : s.op.inTransfer = false) (st : Status) (info : Option Nat) :
    s.raise st info = { s with
      result := false, status := st, trace := .failure st info :: s.trace, op := .idle } := by
  simp only [State.raise, h, Bool.false_eq_true, if_false]

/-- Settles O48: the phases inside and outside a transfer are the two cases of `raise`. -/
theorem raiseTakesAbortActions : Obligations.RaiseTakesAbortActions :=
  fun _ st info => ⟨fun h => raise_of_inTransfer (inTransfer_iff.mpr h) st info,
    fun h => raise_of_not_inTransfer (inTransfer_eq_false_iff.mpr h) st info⟩

/-! The refusals of the acceptance step -/

/-- An idle block that fails stays idle: RESULT, STATUS and the report are all that changes. -/
theorem raise_of_idle {s : State} (h : s.op = .idle) (st : Status) (info : Option Nat) :
    s.raise st info = { s with result := false, status := st, trace := .failure st info :: s.trace } := by
  rw [raise_of_not_inTransfer (inTransfer_eq_false_iff.mpr (.inl h)), ← h]

/-- At an idle port an index above 7 is refused before the image is looked at (R252). -/
theorem exec_select_of_invalid {s : State} {n : BitVec 4} (ho : s.op = .idle) (hn : 7 < n.toNat) :
    exec (.select n) s = .next (s.raise .invalidIndex (some n.toNat)) := by
  rw [exec, execSelect, whenIdle_of_idle ho]
  obtain ⟨-, e⟩ | ⟨hle, -⟩ | ⟨hle, -⟩ := selectStep_cases s n State.transferStart
  · rw [e]
  · omega
  · omega

/-- At an idle port without an image a valid index is refused (R251). -/
theorem exec_select_of_noImage {s : State} {n : BitVec 4} (ho : s.op = .idle) (hv : s.imgValid = false)
    (hn : n.toNat ≤ 7) : exec (.select n) s = .next (s.raise .noImage none) := by
  rw [exec, execSelect, whenIdle_of_idle ho]
  obtain ⟨hbad, -⟩ | ⟨-, -, e⟩ | ⟨-, hyes, -⟩ := selectStep_cases s n State.transferStart
  · omega
  · rw [e]
  · simp [hv] at hyes

/-- At an idle port without an image BURN is refused (R181, R251). -/
theorem exec_burn_of_noImage {s : State} (ho : s.op = .idle) (hv : s.imgValid = false) :
    exec .burn s = .next (s.raise .noImage none) := by
  rw [exec, execBurn, whenIdle_of_idle ho, if_neg (Bool.eq_false_iff.mp hv)]

/-- Settles O12: the refusal of the index, raised in an idle block. -/
theorem selectInvalidIndex : Obligations.SelectInvalidIndex := by
  intro s n ho hn
  rw [exec_select_of_invalid ho hn, raise_of_idle ho]

/-- Settles O13: both commands raise NoImage in an idle block. -/
theorem noImageFails : Obligations.NoImageFails := by
  intro s n ho hv hn
  rw [exec_select_of_noImage ho hv hn, exec_burn_of_noImage ho hv, raise_of_idle ho]
  exact ⟨rfl, rfl⟩

end Sys2Proof.Machine
end

section
/-! The restart of the process (R290 to R293, R296): what the host's automatic first load issues and what it leaves of
the host (R232, log entry 23). -/

namespace Sys2Proof.Machine

/-! What a load issues -/

section
variable {h : HexParams} {load : Nat} {first : Bool} {file : Option (List Byte)}

/-- A load that fails issues nothing (R234). -/
theorem loadFile_requests_of_failure (hr : (loadFile h load first file).result ≠ .success) :
    (loadFile h load first file).requests = [] := by
  obtain ⟨-, hnone, -⟩ | ⟨_, _, -, -, e⟩ := loadFile_cases (h := h) (load := load) first file
  · rw [LoadReport.requests, hnone]
  · exact absurd (by rw [e]) hr

/-- A load that succeeds issues one REPLACE_IMAGE with the staged image, a 4096-byte value (R102, R221). -/
theorem loadFile_requests_of_success (hr : (loadFile h load first file).result = .success) :
    ∃ m, (loadFile h load first file).staged = some m ∧
      (loadFile h load first file).requests = [{ cmd := 0x40, imgIn := m }] ∧ Memory.wf imgBytes m = true := by
  obtain ⟨hfail, -⟩ | ⟨_, b, -, -, e⟩ := loadFile_cases (h := h) (load := load) first file
  · exact absurd hr hfail
  · exact ⟨stagedImage load b, by rw [e], by rw [e, LoadReport.requests], stagedImage_wf b⟩

/-- The first load at process start persists no path, whatever its result is (R232). -/
theorem loadFile_first_persistPath : (loadFile h load true file).persistPath = false := by
  obtain ⟨-, -, hp⟩ | ⟨_, _, -, -, e⟩ := loadFile_cases (h := h) (load := load) true file
  · exact hp
  · rw [e, Bool.not_true]

end

/-- The word 0x40 with a 4096-byte operand is REPLACE_IMAGE of that operand (R96, R121). -/
theorem decode_command_replaceImage {m : Memory} (hw : Memory.wf imgBytes m = true) :
    decode (.command { cmd := 0x40, imgIn := m }) = .ok (.replaceImage m) := by
  simp [decode, decodeCommand, opcField, argField, hw]

/-! The host at process start -/

namespace HexHost
variable {t : HexHost} {path : Path}

/-- The first load only counts itself on the host's side. -/
theorem load_first_host : (t.load true path).2 = { t with loads := t.loads + 1 } := by
  rw [load, loadFile_first_persistPath, if_neg Bool.false_ne_true]

theorem start_of_no_path (hp : t.lastUsed = none) : t.start = ([], t) := by
  rw [start, hp]

/-- With a last-used path the process starts with the load of the file there (R232, R296). -/
theorem start_of_path (hp : t.lastUsed = some path) :
    t.start = ((loadFile t.params t.loads true (fileAt t.files path)).requests, { t with loads := t.loads + 1 }) := by
  simp only [start, hp, load_first_host, load_report]

/-- The start keeps the last-used path and the files, and runs at most one load (R296). -/
theorem start_host (t : HexHost) :
    t.start.2 = { t with loads := t.loads + (if t.lastUsed = none then 0 else 1) } := by
  cases hp : t.lastUsed with
  | none => rw [start_of_no_path hp, if_pos rfl, Nat.add_zero, ← hp]
  | some path => rw [start_of_path hp, if_neg (Option.some_ne_none path), ← hp]

end HexHost

/-- Settles O53: the step is `s.restart`; the requests in front are those of the host's start, which are those of its
first load where a path is persisted. -/
theorem restartKeepsEeprom : Obligations.RestartKeepsEeprom := by
  intro s hr
  refine ⟨s.host.start.1, ?_, fun hp => ?_, ?_⟩
  · rw [step_restart hr, State.restart, HexHost.start_host]
  · rw [HexHost.start_of_no_path hp]
  · rintro path rep hp rfl
    rw [HexHost.start_of_path hp]
    refine ⟨loadFile_requests_of_failure, fun hs => ?_⟩
    obtain ⟨m, hm, hreq, hw⟩ := loadFile_requests_of_success hs
    exact ⟨m, hm, hreq, decode_command_replaceImage hw⟩

end Sys2Proof.Machine
end

section
/-! The decoder against the encoder (sections 1 and 2 of 30_encoding.md), and what the command port does with a word
that decodes to no command (R98, R121). -/

namespace Sys2Proof

/-! The fields of a command word -/

theorem opcField_commandWord (opc arg : BitVec 4) : opcField (commandWord opc arg) = opc :=
  BitVec.extractLsb'_append_eq_left

theorem argField_commandWord (opc arg : BitVec 4) : argField (commandWord opc arg) = arg :=
  BitVec.extractLsb'_append_eq_right

/-- A word is made of its two fields (R95). -/
theorem commandWord_fields (w : Byte) : commandWord (opcField w) (argField w) = w := by
  unfold commandWord opcField argField
  rw [BitVec.extractLsb'_append_extractLsb'_eq_extractLsb' (by decide)]
  simp

/-! The bits of a byte cell -/

theorem cellLevels_byteOfLevels (b7 b6 b5 b4 b3 b2 b1 b0 : Level) :
    cellLevels (byteOfLevels b7 b6 b5 b4 b3 b2 b1 b0) = [b7, b6, b5, b4, b3, b2, b1, b0, true] := by
  revert b7 b6 b5 b4 b3 b2 b1 b0
  decide

/-- A byte is determined by its cell, so its bits make up the byte again. -/
theorem byteOfLevels_bits (d : Byte) :
    byteOfLevels (d.getLsbD 7) (d.getLsbD 6) (d.getLsbD 5) (d.getLsbD 4) (d.getLsbD 3) (d.getLsbD 2) (d.getLsbD 1)
      (d.getLsbD 0) = d := by
  refine Instr.byteCell.inj (Laws.EncodeInjective.byteCell d (.byteCell _) ?_)
  rw [encode, encode, cellLevels_byteOfLevels, cellLevels]

/-! Decoding a code -/

theorem decodeCommand_select {r : Request} (h : opcField r.cmd = 0x1) :
    decodeCommand r = .ok (.select (argField r.cmd)) := if_pos h

theorem decodeCommand_of_arg {r : Request} (h1 : opcField r.cmd ≠ 0x1) (ha : argField r.cmd ≠ 0) :
    decodeCommand r = .error .badCommand := by
  rw [decodeCommand, if_neg h1, if_pos ha]

theorem decodeCommand_burn {r : Request} (h : r.cmd = 0x20) : decodeCommand r = .ok .burn := by
  simp [decodeCommand, opcField, argField, h]

theorem decodeCommand_toggleBus {r : Request} (h : r.cmd = 0x30) : decodeCommand r = .ok .toggleBus := by
  simp [decodeCommand, opcField, argField, h]

theorem decodeCommand_replaceImage {r : Request} (h : r.cmd = 0x40) :
    decodeCommand r = if Memory.wf imgBytes r.imgIn then .ok (.replaceImage r.imgIn) else .error .operandShape := by
  simp [decodeCommand, opcField, argField, h]

theorem decodeWire_header : decodeWire headerLevels = .ok .header := rfl

theorem decodeWire_cell (b7 b6 b5 b4 b3 b2 b1 b0 : Level) :
    decodeWire [b7, b6, b5, b4, b3, b2, b1, b0, true] = .ok (.byteCell (byteOfLevels b7 b6 b5 b4 b3 b2 b1 b0)) := by
  rw [decodeWire, if_neg (by simp [headerLevels])]

/-- Settles O1: one row of the tables after the other. -/
theorem decodeEncodeAgree : Obligations.DecodeEncodeAgree := by
  intro i hw
  cases i with
  | select n =>
    rw [encode, decode, decodeCommand_select (opcField_commandWord 1 n), argField_commandWord]
  | burn => exact decodeCommand_burn rfl
  | toggleBus => exact decodeCommand_toggleBus rfl
  | replaceImage img => exact Machine.decode_command_replaceImage hw
  | header => exact decodeWire_header
  | byteCell d => rw [encode, decode, cellLevels, decodeWire_cell, byteOfLevels_bits]

/-! What the decoder accepts -/

/-- The words that are a command, each with its fields (R96). -/
theorem decodeCommand_ok {r : Request} {i : Instr} (h : decodeCommand r = .ok i) :
    (opcField r.cmd = 1 ∧ i = .select (argField r.cmd)) ∨
      argField r.cmd = 0 ∧ ((opcField r.cmd = 2 ∧ i = .burn) ∨ (opcField r.cmd = 3 ∧ i = .toggleBus) ∨
        (opcField r.cmd = 4 ∧ i = .replaceImage r.imgIn ∧ Memory.wf imgBytes r.imgIn = true)) := by
  unfold decodeCommand at h
  split at h
  · next h1 => exact .inl ⟨h1, (Except.ok.inj h).symm⟩
  · split at h
    · cases h
    · next ha =>
      refine .inr ⟨not_not.mp ha, ?_⟩
      split at h
      · next h2 => exact .inl ⟨h2, (Except.ok.inj h).symm⟩
      · split at h
        · next h3 => exact .inr (.inl ⟨h3, (Except.ok.inj h).symm⟩)
        · split at h
          · next h4 =>
            split at h
            · next hw => exact .inr (.inr ⟨h4, (Except.ok.inj h).symm, hw⟩)
            · cases h
          · cases h

/-- The levels that are a wire format (R91, R92). -/
theorem decodeWire_ok {l : List Level} {i : Instr} (h : decodeWire l = .ok i) :
    (l = headerLevels ∧ i = .header) ∨ ∃ d, l = cellLevels d ∧ i = .byteCell d := by
  unfold decodeWire at h
  split at h
  · next hl => exact .inl ⟨hl, (Except.ok.inj h).symm⟩
  · split at h
    · exact .inr ⟨_, (cellLevels_byteOfLevels ..).symm, (Except.ok.inj h).symm⟩
    · cases h

/-- A word whose fields are those of a table row is the word of that row. -/
theorem cmd_eq_of_fields {w : Byte} {opc : BitVec 4} (ho : opcField w = opc) (ha : argField w = 0) :
    w = commandWord opc 0 := by
  rw [← commandWord_fields w, ho, ha]

/-- Settles O2: the accepted words and levels by `decodeCommand_ok` and `decodeWire_ok`. -/
theorem decodedCodeEncodesBack : Obligations.DecodedCodeEncodesBack := by
  refine ⟨fun r i h => ?_, fun l i h => ?_⟩
  · obtain ⟨ho, rfl⟩ | ⟨ha, ⟨ho, rfl⟩ | ⟨ho, rfl⟩ | ⟨ho, rfl, hw⟩⟩ := decodeCommand_ok h
    · refine ⟨rfl, [], ?_, fun h4 => by simp [ho] at h4⟩
      rw [encode, ← ho, commandWord_fields]
    · exact ⟨rfl, [], by rw [cmd_eq_of_fields ho ha]; rfl, fun h4 => by simp [ho] at h4⟩
    · exact ⟨rfl, [], by rw [cmd_eq_of_fields ho ha]; rfl, fun h4 => by simp [ho] at h4⟩
    · exact ⟨hw, r.imgIn, by rw [cmd_eq_of_fields ho ha]; rfl, fun _ => rfl⟩
  · obtain ⟨rfl, rfl⟩ | ⟨d, rfl, rfl⟩ := decodeWire_ok h
    · exact ⟨rfl, rfl⟩
    · exact ⟨rfl, rfl⟩

/-! Illegal words -/

/-- The words of R98: an operation code outside the table, or an operand where the row has none. -/
theorem decodeCommand_illegal {r : Request} (h : opcField r.cmd = 0 ∨ 5 ≤ (opcField r.cmd).toNat ∨
    ((opcField r.cmd = 2 ∨ opcField r.cmd = 3 ∨ opcField r.cmd = 4) ∧ argField r.cmd ≠ 0)) :
    decodeCommand r = .error .badCommand := by
  have h1 : opcField r.cmd ≠ 1 := by
    intro h1
    simp [h1] at h
  by_cases ha : argField r.cmd = 0
  · have hout : opcField r.cmd = 0 ∨ 5 ≤ (opcField r.cmd).toNat := by simpa [ha] using h
    have hne : ∀ c : BitVec 4, c.toNat = 2 ∨ c.toNat = 3 ∨ c.toNat = 4 → opcField r.cmd ≠ c := by
      rintro c hc rfl
      obtain h0 | h5 := hout
      · simp [h0] at hc
      · omega
    rw [decodeCommand, if_neg h1, if_neg (not_not.mpr ha), if_neg (hne 2 (by decide)), if_neg (hne 3 (by decide)),
      if_neg (hne 4 (by decide))]
  · exact decodeCommand_of_arg h1 ha

/-- Settles O3: the port refuses the word (`step_illegal`), raised in an idle block. -/
theorem illegalWordIsBadCommand : Obligations.IllegalWordIsBadCommand := by
  intro s r rest hr ho hc hbad
  rw [Machine.step_illegal hr ho hc (decodeCommand_illegal hbad), Machine.raise_of_idle (by exact ho)]

/-- Settles O10: `exec` tests the operand, and the decoder tests it before at the port. -/
theorem otherOperandIsNoReplaceImage : Obligations.OtherOperandIsNoReplaceImage := by
  refine ⟨fun s img ho hw => ?_, fun s r rest hr ho hc hcmd hw => ?_⟩
  · rw [Machine.exec, Machine.execReplaceImage, Machine.whenIdle_of_idle ho, if_neg (Bool.eq_false_iff.mp hw)]
  · refine Machine.step_bad_operand hr ho hc ?_
    rw [decodeCommand_replaceImage hcmd, if_neg (Bool.eq_false_iff.mp hw)]

/-! Words of the table -/

theorem decodeTableWord_headerWord : decodeTableWord 40 0x1FDFEFF7FD = some .header := by
  have hc : codeOfTableWord 40 0x1FDFEFF7FD = some (.wire (levelsOfNat 37 0x1FDFEFF7FD)) := rfl
  rw [decodeTableWord, hc, Machine.levelsOfNat_headerWord]
  rfl

/-- Settles O4: the decoder evaluated on each code. -/
theorem wordsOfTheTableDecode : Obligations.WordsOfTheTableDecode :=
  ⟨rfl, rfl, decodeCommand_burn rfl, decodeCommand_toggleBus rfl,
    Machine.decode_command_replaceImage (by decide), decodeWire_cell .., decodeTableWord_headerWord⟩

end Sys2Proof
end

section
/-! The fetch: which instruction a step runs, from the port, in the polling phases and for a placed table word (R44,
R144; log entries 9, 10, 22). -/

namespace Sys2Proof.Machine

/-! The instruction a table word stands for -/

theorem decodeTableWord_eq_some {nbits w : Nat} {i : Instr} (h : decodeTableWord nbits w = some i) :
    ∃ c, codeOfTableWord nbits w = some c ∧ decode c = .ok i := by
  unfold decodeTableWord at h
  split at h
  · cases h
  · next c hc =>
    split at h
    · next j hd =>
      cases h
      exact ⟨c, hc, hd⟩
    · cases h

/-- The 8-bit rows are command words, with no operand (log entry 22). -/
theorem codeOfTableWord_command {w : Nat} {c : Code} (h : codeOfTableWord 8 w = some c) :
    c = .command { cmd := BitVec.ofNat 8 w, imgIn := [] } := by
  simp only [codeOfTableWord, if_true] at h
  split at h
  · exact (Option.some.inj h).symm
  · cases h

/-- The 16-bit and the 40-bit rows are wire formats (log entry 22). -/
theorem codeOfTableWord_wire {nbits w : Nat} {c : Code} (hn : nbits = 16 ∨ nbits = 40)
    (h : codeOfTableWord nbits w = some c) : ∃ l, c = .wire l := by
  obtain rfl | rfl := hn
  · have h' : w < 512 ∧ Code.wire (levelsOfNat 9 w) = c := by simpa [codeOfTableWord] using h
    exact ⟨_, h'.2.symm⟩
  · have h' : w < 137438953472 ∧ Code.wire (levelsOfNat 37 w) = c := by simpa [codeOfTableWord] using h
    exact ⟨_, h'.2.symm⟩

/-! Where a table word is placed -/

section
variable {s : State} {w : Nat}

theorem withFetchWord_command {i : Instr} (h : decodeTableWord 8 w = some i) :
    ∃ r, decodeCommand r = .ok i ∧
      s.withFetchWord 8 w = { s with op := .idle, restartIn := false, cmdIn := r :: s.cmdIn } := by
  obtain ⟨c, hc, hd⟩ := decodeTableWord_eq_some h
  obtain rfl := codeOfTableWord_command hc
  exact ⟨_, hd, by rw [State.withFetchWord, placeWord, hc]⟩

theorem withFetchWord_header (h : decodeTableWord 40 w = some .header) :
    s.withFetchWord 40 w = { s with op := .xferHeader, restartIn := false, clTmo := max 1 s.clTmo } := by
  obtain ⟨c, hc, hd⟩ := decodeTableWord_eq_some h
  obtain ⟨l, rfl⟩ := codeOfTableWord_wire (.inr rfl) hc
  simp only [State.withFetchWord, placeWord, hc, hd]

theorem withFetchWord_byteCell {d : Byte} (h : decodeTableWord 16 w = some (.byteCell d)) :
    s.withFetchWord 16 w = { s with op := .xferData, restartIn := false, clTmo := max 1 s.clTmo, clCur := d } := by
  obtain ⟨c, hc, hd⟩ := decodeTableWord_eq_some h
  obtain ⟨l, rfl⟩ := codeOfTableWord_wire (.inl rfl) hc
  simp only [State.withFetchWord, placeWord, hc, hd]

end

/-! The instruction a polling phase runs -/

theorem exec_header_of_phase {s : State} (ho : s.op = .xferHeader) :
    exec .header s = .next (s.poll s.cfg.hdrTimeout State.headerEdge) := by
  rw [exec, execHeader, if_pos ho]

theorem exec_byteCell_of_phase {s : State} (ho : s.op = .xferData) (d : Byte) :
    exec (.byteCell d) s = .next (s.poll s.cfg.dataTimeout (State.dataEdge d)) := by
  rw [exec, execByteCell, if_pos ho]

theorem step_eq_exec_header {s : State} (hr : s.restartIn = false) (ho : s.op = .xferHeader) :
    step s = exec .header s := by
  rw [step_header hr ho, exec_header_of_phase ho]

theorem step_eq_exec_byteCell {s : State} (hr : s.restartIn = false) (ho : s.op = .xferData) :
    step s = exec (.byteCell s.clCur) s := by
  rw [step_data hr ho, exec_byteCell_of_phase ho]

/-- Settles O7: at the port, in the two polling phases, and for a placed word of each width. -/
theorem stepRunsDecodedInstruction : Obligations.StepRunsDecodedInstruction := by
  refine ⟨fun s r rest i hr ho hc hd => step_request hr ho hc hd, fun s => step_eq_exec_header,
    fun s => step_eq_exec_byteCell, fun s w i h => ?_, fun s w h => ?_, fun s w d h => ?_⟩
  · obtain ⟨r, hd, e⟩ := withFetchWord_command (s := s) h
    rw [e, step_request rfl rfl rfl hd]
  · rw [withFetchWord_header h]
    exact ⟨rfl, step_eq_exec_header rfl rfl⟩
  · rw [withFetchWord_byteCell h]
    exact ⟨rfl, step_eq_exec_byteCell rfl rfl⟩

/-- Settles O8: the guard of each meaning, `whenIdle` for the commands and the phase for the wire formats. -/
theorem noMoveOutsideItsPhase : Obligations.NoMoveOutsideItsPhase := by
  refine ⟨fun s n img ho => ⟨?_, ?_, ?_, ?_⟩, fun s ho => ?_, fun s d ho => ?_⟩
  · rw [exec, execSelect, whenIdle_of_busy ho]
  · rw [exec, execBurn, whenIdle_of_busy ho]
  · rw [exec, execToggleBus, whenIdle_of_busy ho]
  · rw [exec, execReplaceImage, whenIdle_of_busy ho]
  · rw [exec, execHeader, if_neg ho]
  · rw [exec, execByteCell, if_neg ho]

end Sys2Proof.Machine
end

section
/-! The polling iteration, edge by edge (R144 to R152, R156), and the acceptance and probe of a burn (R180, R182). -/

namespace Sys2Proof.Machine

section
variable {s : State} {b : Nat} {edge : State → State}

/-! What a polling iteration does, by budget and sample -/

theorem poll_of_exhausted (h : s.clTmo = 0) : s.poll b edge = s.raise .transferTimeout none := if_pos h

theorem poll_of_no_edge (h : 0 < s.clTmo) (he : ¬(s.clPrev = true ∧ s.clkLevel = false)) :
    s.poll b edge = s.sampled := by
  rw [State.poll, if_neg (by omega), if_neg (by rwa [fallingEdge_iff])]

end

/-! The counters under the edge actions -/

theorem ofNat_toNat_succ {w : Nat} (x : BitVec w) : BitVec.ofNat w (x.toNat + 1) = x + 1 := by
  rw [BitVec.ofNat_add, BitVec.ofNat_toNat, BitVec.setWidth_eq]
  rfl

/-- Settles O17: the exhausted budget raises TransferTimeout inside a transfer. -/
theorem exhaustedBudgetAborts : Obligations.ExhaustedBudgetAborts := by
  intro s d h0
  refine ⟨fun ho => ?_, fun ho => ?_⟩
  · rw [exec_header_of_phase ho, poll_of_exhausted h0, raise_of_inTransfer (by rw [ho]; rfl)]
  · rw [exec_byteCell_of_phase ho, poll_of_exhausted h0, raise_of_inTransfer (by rw [ho]; rfl)]

/-- Settles O18: without an edge the iteration is its sampling part. -/
theorem pollWithoutEdge : Obligations.PollWithoutEdge := by
  intro s d hpos he
  refine ⟨fun ho => ?_, fun ho => ?_⟩
  · rw [exec_header_of_phase ho, poll_of_no_edge hpos he, sampled_eq]
  · rw [exec_byteCell_of_phase ho, poll_of_no_edge hpos he, sampled_eq]

section
variable {s : State} (hpos : 0 < s.clTmo) (hp : s.clPrev = true) (hc : s.clkLevel = false)
include hpos hp hc

/-! An edge of the header phase -/

theorem header_poll_of_edge (hk : s.clEdge.toNat ≠ 36) :
    s.poll s.cfg.hdrTimeout State.headerEdge =
      { s with
        clTmo := if s.cfg.tmoPerEdge then s.cfg.hdrTimeout else s.clTmo - 1
        clPrev := false
        clkIn := s.clkIn.tail
        envIdx := if s.clkIn = [] then s.envIdx + 1 else s.envIdx
        clEdge := s.clEdge + 1
        sda := headerLevel (s.clEdge.toNat + 1)
        trace := .tx (headerLevel (s.clEdge.toNat + 1)) :: .clkSample false :: .wdtKick :: s.trace } := by
  obtain ⟨h, -⟩ | ⟨-, h, -⟩ | ⟨-, -, -, -, e⟩ | ⟨-, -, -, h, -⟩ := header_poll_cases s
  · omega
  · exact absurd ⟨hp, hc⟩ h
  · rw [e, ofNat_toNat_succ]
  · exact absurd h hk

theorem header_poll_of_last_edge (hk : s.clEdge.toNat = 36) :
    s.poll s.cfg.hdrTimeout State.headerEdge =
      { s with
        clTmo := s.cfg.dataTimeout
        clPrev := false
        clkIn := s.clkIn.tail
        envIdx := if s.clkIn = [] then s.envIdx + 1 else s.envIdx
        clEdge := 37
        sda := true
        trace := .tx true :: .clkSample false :: .wdtKick :: s.trace
        clByte := 0
        clBit := 0
        clCur := s.fetchByte 0
        op := .xferData } := by
  obtain ⟨h, -⟩ | ⟨-, h, -⟩ | ⟨-, -, -, h, -⟩ | ⟨-, -, -, -, e⟩ := header_poll_cases s
  · omega
  · exact absurd ⟨hp, hc⟩ h
  · exact absurd hk h
  · exact e

/-! An edge of the data phase -/

theorem data_poll_of_bit (d : Byte) (hb : s.clBit.toNat < 8) :
    s.poll s.cfg.dataTimeout (State.dataEdge d) =
      { s with
        clTmo := if s.cfg.tmoPerEdge then s.cfg.dataTimeout else s.clTmo - 1
        clPrev := false
        clkIn := s.clkIn.tail
        envIdx := if s.clkIn = [] then s.envIdx + 1 else s.envIdx
        clBit := s.clBit + 1
        sda := d.getLsbD (7 - s.clBit.toNat)
        trace := .tx (d.getLsbD (7 - s.clBit.toNat)) :: .clkSample false :: .wdtKick :: s.trace } := by
  obtain ⟨h, -⟩ | ⟨-, h, -⟩ | ⟨-, -, -, -, e⟩ | ⟨-, -, -, h, -⟩ | ⟨-, -, -, h, -⟩ := data_poll_cases s d
  · omega
  · exact absurd ⟨hp, hc⟩ h
  · rw [e, ofNat_toNat_succ]
  · omega
  · omega

theorem data_poll_of_gap (d : Byte) (hb : s.clBit.toNat = 8) (hy : s.clByte.toNat < 511) :
    s.poll s.cfg.dataTimeout (State.dataEdge d) =
      { s with
        clTmo := if s.cfg.tmoPerEdge then s.cfg.dataTimeout else s.clTmo - 1
        clPrev := false
        clkIn := s.clkIn.tail
        envIdx := if s.clkIn = [] then s.envIdx + 1 else s.envIdx
        clBit := 0
        clByte := s.clByte + 1
        clCur := s.fetchByte (s.clByte.toNat + 1)
        sda := true
        trace := .tx true :: .clkSample false :: .wdtKick :: s.trace } := by
  obtain ⟨h, -⟩ | ⟨-, h, -⟩ | ⟨-, -, -, h, -⟩ | ⟨-, -, -, -, -, e⟩ | ⟨-, -, -, -, h, -⟩ := data_poll_cases s d
  · omega
  · exact absurd ⟨hp, hc⟩ h
  · omega
  · rw [e, ofNat_toNat_succ]
  · omega

theorem data_poll_of_last_gap (d : Byte) (hb : s.clBit.toNat = 8) (hy : s.clByte.toNat = 511) :
    s.poll s.cfg.dataTimeout (State.dataEdge d) =
      { s with
        clTmo := if s.cfg.tmoPerEdge then s.cfg.dataTimeout else s.clTmo - 1
        clPrev := false
        clkIn := s.clkIn.tail
        envIdx := if s.clkIn = [] then s.envIdx + 1 else s.envIdx
        clBit := 0
        clByte := 512
        sda := true
        trace := .tx true :: .clkSample false :: .wdtKick :: s.trace
        irqLock := false
        op := .idle
        result := true
        status := .ok } := by
  obtain ⟨h, -⟩ | ⟨-, h, -⟩ | ⟨-, -, -, h, -⟩ | ⟨-, -, -, -, h, -⟩ | ⟨-, -, -, -, -, e⟩ := data_poll_cases s d
  · omega
  · exact absurd ⟨hp, hc⟩ h
  · omega
  · omega
  · rw [e, hy]
    rfl

end

/-- Settles O19: the iteration of a header edge before the 37th. -/
theorem headerEdgeDrivesLevel : Obligations.HeaderEdgeDrivesLevel := by
  intro s ho hpos hp hc hk
  rw [exec_header_of_phase ho, header_poll_of_edge hpos hp hc hk.ne, headerLevel_eq_decide]

/-- Settles O20: the iteration of the 37th header edge. -/
theorem lastHeaderEdgeEntersData : Obligations.LastHeaderEdgeEntersData := by
  intro s ho hpos hp hc hk
  rw [exec_header_of_phase ho, header_poll_of_last_edge hpos hp hc hk, State.fetchByte, fetchAddr, Nat.add_zero]

/-- Settles O21: the iteration of a bit edge. -/
theorem dataEdgeDrivesBit : Obligations.DataEdgeDrivesBit := by
  intro s d ho hpos hp hc hb
  rw [exec_byteCell_of_phase ho, data_poll_of_bit hpos hp hc d hb]

/-- Settles O22: the iteration of a gap edge before the last. -/
theorem gapEdgeFetchesNextByte : Obligations.GapEdgeFetchesNextByte := by
  intro s d ho hpos hp hc hb hy
  rw [exec_byteCell_of_phase ho, data_poll_of_gap hpos hp hc d hb hy, State.fetchByte, fetchAddr]

/-- Settles O23: the iteration of the last gap edge. -/
theorem lastGapEdgeFinishes : Obligations.LastGapEdgeFinishes := by
  intro s d ho hpos hp hc hb hy
  rw [exec_byteCell_of_phase ho, data_poll_of_last_gap hpos hp hc d hb hy]

/-! The acceptance and the probe of a burn -/

/-- Settles O32: the acceptance step of BURN with an image. -/
theorem burnStartsProbing : Obligations.BurnStartsProbing := by
  intro s ho hv
  rw [exec, execBurn, whenIdle_of_idle ho, if_pos hv]

theorem probe_of_present {s : State} (h : s.probeAnswer = true) :
    s.probe = { s.takeProbe with status := .ok, eeAddr := 0, op := .eeWrite } := if_pos h

theorem probe_of_absent {s : State} (h : s.probeAnswer = false) :
    s.probe = { s.takeProbe with status := .deviceNotPresent } := if_neg (Bool.eq_false_iff.mp h)

/-- Settles O33: the probe step by its answer. -/
theorem probeDecidesWait : Obligations.ProbeDecidesWait := by
  intro s hr ho
  refine ⟨fun h => ?_, fun h => ?_⟩
  · rw [step_probe hr ho, probe_of_present h, State.takeProbe, h]
  · rw [step_probe hr ho, probe_of_absent h, State.takeProbe, h]

end Sys2Proof.Machine
end

section
/-! The state invariant (R54 and the ranges of section 3 of 10_state.md): it holds after reset, and each shared
operation and each step of a phase keeps it. -/

namespace Sys2Proof.Machine

/-! After reset -/

theorem resetWith_inv {p : Params} (h : p.wf = true) : (State.resetWith p).Inv where
  cfg_wf := h
  img_wf := Memory.wf_nil _
  ee_wf := Memory.wf_nil _
  no_image _ := rfl
  sda_high _ := rfl
  notify_low := by simp [State.resetWith]
  irq_lock := rfl
  bus_pin := rfl
  status_final _ := by simp [State.resetWith]
  ncnt_le := Nat.zero_le _
  tmo_le := Nat.zero_le _
  edge_le := Nat.zero_le _
  byte_le := Nat.zero_le _
  bit_le := Nat.zero_le _
  addr_le := Nat.zero_le _
  mism_le := Nat.zero_le _
  header := by simp [State.resetWith]
  data := by simp [State.resetWith]
  chunk := by simp [State.resetWith]
  verify := by simp [State.resetWith]

/-- Settles O50: the fields of `State.resetWith`. -/
theorem resetValues : Obligations.ResetValues :=
  ⟨rfl, rfl, rfl, rfl, rfl, rfl, rfl, rfl, rfl, rfl, rfl, rfl, rfl, rfl, rfl, rfl, rfl, rfl, rfl, rfl⟩

/-- Settles O51: an idle block owes nothing to the trace and burn invariants; `resetWith_inv` is the state invariant. -/
theorem resetMeetsInvariant : Obligations.ResetMeetsInvariant := by
  refine ⟨resetWith_inv config_params_wf, ⟨?_, ?_, ?_⟩, ⟨?_, ?_⟩, fun p => resetWith_inv⟩ <;>
    simp [State.reset, State.resetWith]

/-! The chunk list -/

theorem limit_pos_of_wf {p : Params} (h : p.wf = true) : 0 < limit p := by
  obtain ⟨-, -, -, -, -, hcap⟩ := params_wf_iff.mp h
  rw [limit_eq]
  omega

section
variable {p : Params} {a : Nat} (hd : chunkDefined p a = true)
include hd

/-- A chunk that does not end at LIMIT is a full page, and the next address is again of the chunk list (R184, R192). -/
theorem chunkDefined_next (hne : a + chunkLen p a ≠ limit p) :
    chunkLen p a = p.eePage ∧ chunkDefined p (a + chunkLen p a) = true := by
  obtain ⟨hlt, hmod⟩ := chunkDefined_iff.mp hd
  have hlen : chunkLen p a = p.eePage := by
    rw [chunkLen_eq] at hne ⊢
    omega
  have hend := chunk_end_le_limit hd
  refine ⟨hlen, chunkDefined_iff.mpr ⟨by omega, ?_⟩⟩
  rw [hlen, Nat.add_mod_right, hmod]

theorem chunkLen_pos (hp : 1 ≤ p.eePage) : 1 ≤ chunkLen p a := by
  obtain ⟨hlt, -⟩ := chunkDefined_iff.mp hd
  rw [chunkLen_eq]
  omega

/-- The address after a chunk fits EE_ADDR (R34). -/
theorem chunk_end_toNat : (BitVec.ofNat 13 (a + chunkLen p a)).toNat = a + chunkLen p a := by
  have hend := chunk_end_le_limit hd
  have hlim := limit_le_image p
  rw [BitVec.toNat_ofNat, Nat.mod_eq_of_lt (by omega)]

end

theorem chunkLen_le_page (p : Params) (a : Nat) : chunkLen p a ≤ p.eePage := Nat.min_le_left _ _

/-- Settles O35: the bounds of one chunk and what follows it. -/
theorem chunksCoverUpToLimit : Obligations.ChunksCoverUpToLimit := by
  intro p a hw hd
  obtain ⟨-, -, -, -, hp, -⟩ := params_wf_iff.mp hw
  refine ⟨chunkLen_pos hd hp, chunkLen_le_page p a, chunk_end_le_limit hd, limit_le_image p, limit_le_cap p, ?_⟩
  by_cases hlast : a + chunkLen p a = limit p
  · exact .inl hlast
  · exact .inr (chunkDefined_next hd hlast)

/-! The shared operations -/

section
variable {s : State} (h : s.Inv)
include h

theorem State.Inv.sda_of_not_inTransfer (ht : s.op.inTransfer = false) : s.sda = true := by
  refine h.sda_high ?_
  obtain e | e | e | e := inTransfer_eq_false_iff.mp ht <;> rw [e] <;> rfl

theorem State.Inv.notifyN_of_ne (hn : s.op ≠ .xferNotify) : s.notifyN = true :=
  Bool.eq_true_of_not_eq_false fun e => hn (h.notify_low.mp e)

theorem State.Inv.notifyN_of_not_inTransfer (ht : s.op.inTransfer = false) : s.notifyN = true :=
  h.notifyN_of_ne fun e => by simp [e, Op.inTransfer] at ht

theorem State.Inv.imgValid_of_busy (ho : s.op ≠ .idle) : s.imgValid = true :=
  Bool.eq_true_of_not_eq_false fun e => ho (h.no_image e)

theorem restart_inv : s.restart.Inv := { resetWith_inv h.cfg_wf with ee_wf := h.ee_wf }

/-- The requests to come are no part of the invariant. -/
theorem cmdIn_inv (rest : List Request) : State.Inv { s with cmdIn := rest } := { h with }

/-- A failure other than the waiting for a device leaves an idle block with its lines high and the lock released. -/
theorem raise_inv {st : Status} (hst : st ≠ .deviceNotPresent) (info : Option Nat) : (s.raise st info).Inv :=
  { h with
    no_image := fun _ => rfl
    sda_high := fun _ => by
      cases ht : s.op.inTransfer
      · simp [State.raise, ht, h.sda_of_not_inTransfer ht]
      · simp [State.raise, ht]
    notify_low := by
      cases ht : s.op.inTransfer
      · simp [State.raise, ht, h.notifyN_of_not_inTransfer ht]
      · simp [State.raise, ht]
    irq_lock := by
      change (if s.op.inTransfer then false else s.irqLock) = false
      rw [h.irq_lock]
      cases s.op.inTransfer <;> rfl
    status_final := fun _ => hst
    header := by simp
    data := by simp
    chunk := by simp
    verify := by simp }

/-! The acceptance of a command -/

theorem transferStart_inv (ho : s.op = .idle) (hv : s.imgValid = true) (n : BitVec 3) :
    (State.transferStart { s with sel := n }).Inv :=
  { h with
    no_image := fun e => by simp [hv] at e
    sda_high := fun _ => rfl
    notify_low := by simp
    irq_lock := rfl
    status_final := fun _ => h.status_final (by simp [ho])
    ncnt_le := Nat.le_refl _
    header := by simp
    data := by simp
    chunk := by simp
    verify := by simp }

theorem selectStep_inv (ho : s.op = .idle) (n : BitVec 4) : (s.selectStep n State.transferStart).Inv := by
  obtain ⟨-, e⟩ | ⟨-, -, e⟩ | ⟨-, hv, e⟩ := selectStep_cases s n State.transferStart
  · rw [e]
    exact raise_inv h (by decide) _
  · rw [e]
    exact raise_inv h (by decide) _
  · rw [e]
    exact transferStart_inv h ho hv _

theorem burn_inv (ho : s.op = .idle) (hv : s.imgValid = true) : State.Inv { s with op := .eeProbe } :=
  { h with
    no_image := fun e => by simp [hv] at e
    sda_high := fun _ => h.sda_of_not_inTransfer (by rw [ho]; rfl)
    notify_low := by simp [h.notifyN_of_ne (by simp [ho])]
    irq_lock := by rw [h.irq_lock, ho]; rfl
    status_final := fun e => absurd rfl e
    header := by simp
    data := by simp
    chunk := by simp
    verify := by simp }

theorem toggle_inv (b : BusSel) (v : Bool) : ((s.setBus b).complete v).Inv :=
  { h with
    bus_pin := rfl
    status_final := fun _ => by simp }

theorem replaceImage_inv (ho : s.op = .idle) {img : Memory} (hw : Memory.wf imgBytes img = true) :
    (s.replaceImage img).Inv :=
  { h with
    img_wf := hw
    no_image := fun _ => ho
    status_final := fun _ => by simp
    data := fun e => by simp [ho] at e }

/-! The notify wait -/

theorem notifyWait_inv : s.notifyWait.Inv := by
  rw [notifyWait_eq]
  exact { h with ncnt_le := (Nat.sub_le _ _).trans h.ncnt_le }

theorem notifyRelease_inv (ho : s.op = .xferNotify) : s.notifyRelease.Inv :=
  { h with
    no_image := fun e => by simp [h.imgValid_of_busy (by simp [ho])] at e
    sda_high := fun _ => h.sda_high (by rw [ho]; rfl)
    notify_low := by simp
    irq_lock := by
      rw [State.notifyRelease_irqLock, h.irq_lock, ho]
      rfl
    status_final := fun _ => h.status_final (by simp [ho])
    tmo_le := Nat.le_max_left _ _
    edge_le := Nat.zero_le _
    header := fun _ => ⟨by simp, Nat.le_refl _⟩
    data := by simp
    chunk := by simp
    verify := by simp }

/-! The polling iteration -/

theorem sampled_inv : s.sampled.Inv :=
  { h with
    tmo_le := (Nat.sub_le _ _).trans h.tmo_le
    header := fun ho => ⟨(h.header ho).1, (Nat.sub_le _ _).trans (h.header ho).2⟩
    data := fun ho => by
      obtain ⟨he, hy, hc, ht⟩ := h.data ho
      exact ⟨he, hy, hc, (Nat.sub_le _ _).trans ht⟩ }

theorem header_poll_inv (ho : s.op = .xferHeader) : (s.poll s.cfg.hdrTimeout State.headerEdge).Inv := by
  obtain ⟨hlt, ht⟩ := h.header ho
  obtain ⟨-, e⟩ | ⟨-, -, e⟩ | ⟨-, -, -, hk, e⟩ | ⟨-, -, -, hk, e⟩ := header_poll_cases s
  · rw [e]
    exact raise_inv h (by decide) _
  · rw [e]
    exact sampled_inv h
  · have hb : (if s.cfg.tmoPerEdge then s.cfg.hdrTimeout else s.clTmo - 1) ≤ s.cfg.hdrTimeout := by split <;> omega
    have hc : (BitVec.ofNat 6 (s.clEdge.toNat + 1)).toNat < 37 := by
      rw [BitVec.toNat_ofNat, Nat.mod_eq_of_lt (by omega)]
      omega
    rw [e]
    exact
      { h with
        sda_high := fun e => by simp [ho, Op.polling] at e
        tmo_le := hb.trans (Nat.le_max_left _ _)
        edge_le := hc.le
        header := fun _ => ⟨hc, hb⟩
        data := fun e => by simp [ho] at e }
  · rw [e]
    exact
      { h with
        no_image := fun e => by simp [h.imgValid_of_busy (by simp [ho])] at e
        sda_high := fun _ => rfl
        notify_low := by simp [h.notifyN_of_ne (by simp [ho])]
        irq_lock := by
          simp only [h.irq_lock, ho]
          rfl
        status_final := fun _ => h.status_final (by simp [ho])
        tmo_le := Nat.le_max_right _ _
        edge_le := by simp
        byte_le := Nat.zero_le _
        bit_le := Nat.zero_le _
        header := by simp
        data := fun _ => ⟨rfl, Nat.zero_le _, rfl, Nat.le_refl _⟩
        chunk := by simp
        verify := by simp }

theorem data_poll_inv (ho : s.op = .xferData) : (s.poll s.cfg.dataTimeout (State.dataEdge s.clCur)).Inv := by
  obtain ⟨hk, hy, hcur, ht⟩ := h.data ho
  have hb : (if s.cfg.tmoPerEdge then s.cfg.dataTimeout else s.clTmo - 1) ≤ s.cfg.dataTimeout := by split <;> omega
  have hyy : (BitVec.ofNat 10 (s.clByte.toNat + 1)).toNat = s.clByte.toNat + 1 := by
    rw [BitVec.toNat_ofNat, Nat.mod_eq_of_lt (by omega)]
  obtain ⟨-, e⟩ | ⟨-, -, e⟩ | ⟨-, -, -, hj, e⟩ | ⟨-, -, -, -, hlast, e⟩ | ⟨-, -, -, -, hlast, e⟩ :=
    data_poll_cases s s.clCur
  · rw [e]
    exact raise_inv h (by decide) _
  · rw [e]
    exact sampled_inv h
  · rw [e]
    exact
      { h with
        sda_high := fun e => by simp [ho, Op.polling] at e
        tmo_le := hb.trans (Nat.le_max_right _ _)
        bit_le := by
          rw [BitVec.toNat_ofNat, Nat.mod_eq_of_lt (by omega)]
          omega
        header := fun e => by simp [ho] at e
        data := fun _ => ⟨hk, hy, hcur, hb⟩ }
  · rw [e]
    exact
      { h with
        sda_high := fun _ => rfl
        tmo_le := hb.trans (Nat.le_max_right _ _)
        byte_le := by
          rw [hyy]
          omega
        bit_le := Nat.zero_le _
        header := fun e => by simp [ho] at e
        data := fun _ => ⟨hk, by rw [hyy]; omega, by rw [hyy]; rfl, hb⟩ }
  · rw [e]
    exact
      { h with
        no_image := fun _ => rfl
        sda_high := fun _ => rfl
        notify_low := by simp [h.notifyN_of_ne (by simp [ho])]
        irq_lock := rfl
        status_final := fun _ => by simp
        tmo_le := hb.trans (Nat.le_max_right _ _)
        byte_le := by
          rw [hyy]
          omega
        bit_le := Nat.zero_le _
        header := by simp
        data := by simp
        chunk := by simp
        verify := by simp }

/-! The burn -/

theorem takeProbe_inv : s.takeProbe.Inv := { h with }

theorem takeRead_inv (a n : Nat) : (s.takeRead a n).Inv := { h with }

theorem limit_pos : 0 < limit s.cfg := limit_pos_of_wf h.cfg_wf

theorem probe_inv (ho : s.op = .eeProbe) : s.probe.Inv := by
  have hpos := limit_pos h
  obtain ⟨-, e⟩ | ⟨-, e⟩ := probe_cases s
  · rw [e]
    exact
      { takeProbe_inv h with
        no_image := fun e => by simp [h.imgValid_of_busy (by simp [ho])] at e
        sda_high := fun _ => h.sda_high (by rw [ho]; rfl)
        notify_low := by simp [h.notifyN_of_ne (by simp [ho])]
        irq_lock := by
          simp only [State.takeProbe_irqLock, h.irq_lock, ho]
          rfl
        status_final := fun _ => by simp
        addr_le := Nat.zero_le _
        header := by simp
        data := by simp
        chunk := fun _ => chunkDefined_iff.mpr ⟨hpos, Nat.zero_mod _⟩
        verify := by simp }
  · rw [e]
    exact { takeProbe_inv h with status_final := fun hne => absurd ho hne }

/-- A chunk of the image written into EE stays inside its capacity. -/
theorem eeWrite_imageChunk_inv (hc : chunkDefined s.cfg s.eeAddr.toNat = true) :
    (s.eeWrite s.eeAddr.toNat (s.imageChunk s.eeAddr.toNat)).Inv :=
  { h with
    ee_wf := by
      refine Memory.writeBytes_wf h.ee_wf _ _ ?_
      rw [imageChunk_length]
      exact (chunk_end_le_limit hc).trans (limit_le_cap _) }

theorem writeChunk_inv (ho : s.op = .eeWrite) (hc : chunkDefined s.cfg s.eeAddr.toNat = true) : s.writeChunk.Inv := by
  have hpos := limit_pos h
  have hend := chunk_end_toNat hc
  obtain ⟨-, e⟩ | ⟨hne, e⟩ := writeChunk_cases s
  · rw [e]
    exact
      { eeWrite_imageChunk_inv h hc with
        no_image := fun e => by simp [h.imgValid_of_busy (by simp [ho])] at e
        sda_high := fun _ => h.sda_high (by rw [ho]; rfl)
        notify_low := by simp [h.notifyN_of_ne (by simp [ho])]
        irq_lock := by
          simp only [State.eeWrite_irqLock, h.irq_lock, ho]
          rfl
        status_final := fun _ => h.status_final (by simp [ho])
        addr_le := Nat.zero_le _
        mism_le := Nat.zero_le _
        header := by simp
        data := by simp
        chunk := fun _ => chunkDefined_iff.mpr ⟨hpos, Nat.zero_mod _⟩
        verify := fun _ => Nat.zero_le _ }
  · obtain ⟨-, hnext⟩ := chunkDefined_next hc hne
    rw [e]
    exact
      { eeWrite_imageChunk_inv h hc with
        addr_le := by
          rw [hend]
          exact (chunk_end_le_limit hc).trans (limit_le_image _)
        chunk := fun _ => by rwa [hend] }

theorem verifyChunk_inv (ho : s.op = .eeVerify) (hc : chunkDefined s.cfg s.eeAddr.toNat = true) :
    s.verifyChunk.Inv := by
  have hend := chunk_end_toNat hc
  have haddr : (BitVec.ofNat 13 (s.eeAddr.toNat + chunkLen s.cfg s.eeAddr.toNat)).toNat ≤ 4096 := by
    rw [hend]
    exact (chunk_end_le_limit hc).trans (limit_le_image _)
  have hm1 := h.verify ho
  have hread := takeRead_inv h s.eeAddr.toNat (chunkLen s.cfg s.eeAddr.toNat)
  obtain ⟨m, d, new, -, ⟨e, hm⟩ | ⟨x, e, hm⟩⟩ := verifyChunk_cases s
  · rw [e, verifyAdvance_eq]
    by_cases hlast : s.eeAddr.toNat + chunkLen s.cfg s.eeAddr.toNat = limit s.cfg
    · simp only [State.takeRead_cfg, hlast, if_true]
      rw [hlast] at haddr
      exact
        { hread with
          no_image := fun _ => rfl
          sda_high := fun _ => h.sda_high (by rw [ho]; rfl)
          notify_low := by simp [h.notifyN_of_ne (by simp [ho])]
          irq_lock := by
            simp only [State.takeRead_irqLock, h.irq_lock, ho]
            rfl
          status_final := fun _ => by simp
          addr_le := haddr
          mism_le := (hm hm1).trans (by omega)
          header := by simp
          data := by simp
          chunk := by simp
          verify := by simp }
    · obtain ⟨-, hnext⟩ := chunkDefined_next hc hlast
      simp only [State.takeRead_cfg, hlast, if_false]
      exact
        { hread with
          addr_le := haddr
          mism_le := (hm hm1).trans (by omega)
          chunk := fun _ => by rwa [hend]
          verify := fun _ => hm hm1 }
  · rw [e, hm hm1]
    exact
      { raise_inv hread (st := .verifyMismatch) (by decide) (some x) with
        mism_le := Nat.le_refl 2
        verify := by simp }

end

/-- Every move keeps the state invariant. -/
theorem Move.inv {s t : State} (m : Move s t) (h : s.Inv) : t.Inv := by
  cases m with
  | restart => exact restart_inv h
  | wait => exact h
  | @select _ ho _ rest => exact selectStep_inv (cmdIn_inv h rest) ho _
  | @burn _ ho _ rest _ _ hv => exact burn_inv (cmdIn_inv h rest) ho hv
  | burnNoImage => exact raise_inv (cmdIn_inv h _) (by decide) _
  | toggle => exact toggle_inv (cmdIn_inv h _) _ _
  | @replace _ ho _ rest _ _ hw => exact replaceImage_inv (cmdIn_inv h rest) ho hw
  | illegal => exact raise_inv (cmdIn_inv h _) (by decide) _
  | notifyRelease _ ho => exact notifyRelease_inv h ho
  | notifyWait => exact notifyWait_inv h
  | header _ ho => exact header_poll_inv h ho
  | data _ ho => exact data_poll_inv h ho
  | probe _ ho => exact probe_inv h ho
  | write _ ho hc => exact writeChunk_inv h ho hc
  | verify _ ho hc => exact verifyChunk_inv h ho hc

/-- Settles O52: the moves of a step keep the invariant, one by one. -/
theorem stateInvariantKept : Obligations.StateInvariantKept :=
  fun _ _ h e => (move_of_step e).inv h

end Sys2Proof.Machine
end

section
/-! The levels of a transfer in flight (R160): the frame grows by the level each edge drives. -/

namespace Sys2Proof.Machine

/-! The frame, one edge further -/

section
variable (img : Memory) (sel : BitVec 3)

theorem framePart_header_succ {k : Nat} (hk : k < 37) :
    framePart img sel (k + 1) = framePart img sel k ++ [headerLevel (k + 1)] := by
  rw [framePart_succ, frameLevel_header (by omega)]

theorem framePart_bit_succ (i : Nat) {j : Nat} (hj : j < 8) :
    framePart img sel (37 + 9 * i + (j + 1)) =
      framePart img sel (37 + 9 * i + j) ++ [(img.read (fetchAddr sel i)).getLsbD (7 - j)] := by
  have e : 37 + 9 * i + j + 1 = 38 + 9 * i + j := by omega
  rw [← Nat.add_assoc, framePart_succ, e, frameLevel_bit img sel hj, fetchAddr]

theorem framePart_gap_succ (i : Nat) :
    framePart img sel (37 + 9 * (i + 1)) = framePart img sel (37 + 9 * i + 8) ++ [true] := by
  have e : 37 + 9 * (i + 1) = 37 + 9 * i + 8 + 1 := by omega
  have e' : 37 + 9 * i + 8 + 1 = 38 + 9 * i + 8 := by omega
  rw [e, framePart_succ, e', frameLevel_gap]

end

/-! The trace invariant -/

/-- The trace invariant speaks of the three transfer phases alone. -/
theorem txInv_of_not_inTransfer {t : State} (h : t.op.inTransfer = false) : t.TxInv where
  notify e := by simp [e, Op.inTransfer] at h
  header e := by simp [e, Op.inTransfer] at h
  data e := by simp [e, Op.inTransfer] at h

section
variable {s : State}

theorem selectStep_txInv (n : BitVec 4) : (s.selectStep n State.transferStart).TxInv := by
  obtain ⟨-, e⟩ | ⟨-, -, e⟩ | ⟨-, -, e⟩ := selectStep_cases s n State.transferStart
  · rw [e]
    exact txInv_of_not_inTransfer rfl
  · rw [e]
    exact txInv_of_not_inTransfer rfl
  · rw [e]
    exact ⟨fun _ => rfl, by simp, by simp⟩

theorem notifyWait_tx : s.notifyWait.tx = s.tx := by
  obtain ⟨-, e⟩ | ⟨-, e⟩ := notifyWait_cases s <;> rw [e] <;> rfl

theorem notifyWait_op : s.notifyWait.op = s.op := by
  obtain ⟨-, e⟩ | ⟨-, e⟩ := notifyWait_cases s <;> rw [e]

theorem notifyWait_txInv (hx : s.TxInv) (ho : s.op = .xferNotify) : s.notifyWait.TxInv where
  notify _ := by rw [notifyWait_tx, hx.notify ho]
  header e := by simp [notifyWait_op, ho] at e
  data e := by simp [notifyWait_op, ho] at e

theorem notifyRelease_txInv (hx : s.TxInv) (ho : s.op = .xferNotify) : s.notifyRelease.TxInv where
  notify := by simp
  header _ := hx.notify ho
  data := by simp

theorem sampled_txInv (hx : s.TxInv) : s.sampled.TxInv := ⟨hx.notify, hx.header, hx.data⟩

variable (h : s.Inv) (hx : s.TxInv)
include h hx

theorem header_poll_txInv (ho : s.op = .xferHeader) : (s.poll s.cfg.hdrTimeout State.headerEdge).TxInv := by
  obtain ⟨hlt, -⟩ := h.header ho
  have htx : (txOf s.trace).reverse = framePart s.img s.sel s.clEdge.toNat := hx.header ho
  obtain ⟨-, e⟩ | ⟨-, -, e⟩ | ⟨-, -, -, hk, e⟩ | ⟨-, -, -, hk, e⟩ := header_poll_cases s
  · rw [e]
    exact txInv_of_not_inTransfer rfl
  · rw [e]
    exact sampled_txInv hx
  · have hcount : (BitVec.ofNat 6 (s.clEdge.toNat + 1)).toNat = s.clEdge.toNat + 1 := by
      rw [BitVec.toNat_ofNat, Nat.mod_eq_of_lt (by omega)]
    rw [e]
    refine ⟨fun e => by simp [ho] at e, fun _ => ?_, fun e => by simp [ho] at e⟩
    rw [tx_of_trace_tx rfl, hcount, framePart_header_succ _ _ hlt, ← htx]
    rfl
  · rw [e]
    refine ⟨by simp, by simp, fun _ => ?_⟩
    rw [tx_of_trace_tx rfl]
    change (txOf s.trace).reverse ++ [true] = framePart s.img s.sel (36 + 1)
    rw [framePart_header_succ _ _ (by omega), htx, hk]
    rfl

theorem data_poll_txInv (ho : s.op = .xferData) :
    (s.poll s.cfg.dataTimeout (State.dataEdge s.clCur)).TxInv := by
  obtain ⟨-, hy, hcur, -⟩ := h.data ho
  have hbit := h.bit_le
  have htx : (txOf s.trace).reverse = framePart s.img s.sel (37 + 9 * s.clByte.toNat + s.clBit.toNat) := hx.data ho
  obtain ⟨-, e⟩ | ⟨-, -, e⟩ | ⟨-, -, -, hj, e⟩ | ⟨-, -, -, hj, hlast, e⟩ | ⟨-, -, -, -, -, e⟩ :=
    data_poll_cases s s.clCur
  · rw [e]
    exact txInv_of_not_inTransfer rfl
  · rw [e]
    exact sampled_txInv hx
  · have hcount : (BitVec.ofNat 4 (s.clBit.toNat + 1)).toNat = s.clBit.toNat + 1 := by
      rw [BitVec.toNat_ofNat, Nat.mod_eq_of_lt (by omega)]
    rw [e]
    refine ⟨fun e => by simp [ho] at e, fun e => by simp [ho] at e, fun _ => ?_⟩
    rw [tx_of_trace_tx rfl, hcount, framePart_bit_succ _ _ _ hj, ← htx, hcur]
    rfl
  · have hcount : (BitVec.ofNat 10 (s.clByte.toNat + 1)).toNat = s.clByte.toNat + 1 := by
      rw [BitVec.toNat_ofNat, Nat.mod_eq_of_lt (by omega)]
    have hgap : s.clBit.toNat = 8 := by omega
    rw [e]
    refine ⟨fun e => by simp [ho] at e, fun e => by simp [ho] at e, fun _ => ?_⟩
    change _ = framePart s.img s.sel (37 + 9 * (BitVec.ofNat 10 (s.clByte.toNat + 1)).toNat)
    rw [tx_of_trace_tx rfl, hcount, framePart_gap_succ, ← hgap, ← htx]
    rfl
  · rw [e]
    exact txInv_of_not_inTransfer rfl

end

theorem probe_op_inTransfer {s : State} (ho : s.op = .eeProbe) : s.probe.op.inTransfer = false := by
  obtain ⟨-, e⟩ | ⟨-, e⟩ := probe_cases s
  · rw [e]
    rfl
  · rw [e, State.takeProbe_op, ho]
    rfl

theorem writeChunk_op_inTransfer {s : State} (ho : s.op = .eeWrite) : s.writeChunk.op.inTransfer = false := by
  obtain ⟨-, e⟩ | ⟨-, e⟩ := writeChunk_cases s
  · rw [e]
    rfl
  · rw [e, State.eeWrite_op, ho]
    rfl

theorem verifyChunk_op {s : State} : s.verifyChunk.op = s.op ∨ s.verifyChunk.op = .idle := by
  obtain ⟨m, d, new, -, ⟨e, -⟩ | ⟨x, e, -⟩⟩ := verifyChunk_cases s
  · rw [e, verifyAdvance_eq]
    split
    · exact .inr rfl
    · exact .inl rfl
  · rw [e]
    exact .inr rfl

theorem verifyChunk_op_inTransfer {s : State} (ho : s.op = .eeVerify) : s.verifyChunk.op.inTransfer = false := by
  obtain e | e := verifyChunk_op (s := s)
  · rw [e, ho]
    rfl
  · rw [e]
    rfl

/-- Every move keeps the trace invariant. -/
theorem Move.txInv {s t : State} (m : Move s t) (h : s.Inv) (hx : s.TxInv) : t.TxInv := by
  cases m with
  | restart => exact txInv_of_not_inTransfer rfl
  | wait => exact hx
  | select => exact selectStep_txInv _
  | burn => exact txInv_of_not_inTransfer rfl
  | burnNoImage => exact txInv_of_not_inTransfer rfl
  | toggle => exact ⟨hx.notify, hx.header, hx.data⟩
  | replace _ ho =>
    refine txInv_of_not_inTransfer ?_
    rw [State.replaceImage_op, ho]
    rfl
  | illegal => exact txInv_of_not_inTransfer rfl
  | notifyRelease _ ho => exact notifyRelease_txInv hx ho
  | notifyWait _ ho => exact notifyWait_txInv hx ho
  | header _ ho => exact header_poll_txInv h hx ho
  | data _ ho => exact data_poll_txInv h hx ho
  | probe _ ho => exact txInv_of_not_inTransfer (probe_op_inTransfer ho)
  | write _ ho => exact txInv_of_not_inTransfer (writeChunk_op_inTransfer ho)
  | verify _ ho => exact txInv_of_not_inTransfer (verifyChunk_op_inTransfer ho)

/-- Settles O27: the moves of a step keep the trace invariant, one by one. -/
theorem transferTraceInvariant : Obligations.TransferTraceInvariant :=
  fun _ _ h hx e => (move_of_step e).txInv h hx

/-! The end of a transfer -/

section
variable {s : State} (h : s.Inv) (hx : s.TxInv)
include h hx

/-- The timeout abort leaves the counters and TX, which say the same position inside the frame (R152, R160 (b)). -/
theorem timeout_drove_part (hp : s.op.polling = true) :
    s.framePos < 4645 ∧ s.tx = framePart s.img s.sel s.framePos := by
  obtain ho | ho := polling_iff.mp hp
  · obtain ⟨hlt, -⟩ := h.header ho
    have hpos : s.framePos = s.clEdge.toNat := if_pos hlt
    exact ⟨by omega, by rw [hpos, hx.header ho]⟩
  · obtain ⟨hk, hy, -, -⟩ := h.data ho
    have hbit := h.bit_le
    have hpos : s.framePos = 37 + 9 * s.clByte.toNat + s.clBit.toNat := if_neg (by omega)
    exact ⟨by omega, by rw [hpos, hx.data ho]⟩

/-- The level of the last gap completes the frame (R156, R160 (a)). -/
theorem last_gap_completes_frame (ho : s.op = .xferData) (hb : 8 ≤ s.clBit.toNat) (hy : 511 ≤ s.clByte.toNat) :
    (txOf s.trace).reverse ++ [true] = framePart s.img s.sel 4645 := by
  obtain ⟨-, hy', -, -⟩ := h.data ho
  have hb' := h.bit_le
  have htx : (txOf s.trace).reverse = framePart s.img s.sel (37 + 9 * s.clByte.toNat + s.clBit.toNat) := hx.data ho
  have hbit : s.clBit.toNat = 8 := by omega
  have hbyte : s.clByte.toNat = 511 := by omega
  rw [htx, hbit, hbyte]
  exact (framePart_gap_succ s.img s.sel 511).symm

end

/-- Settles O28: only the timeout and the last gap end a transfer in a polling phase. -/
theorem endedTransferDroveFrame : Obligations.EndedTransferDroveFrame := by
  intro s t h hx hr hp e hidle
  have hpart := timeout_drove_part h hx hp
  obtain ho | ho := polling_iff.mp hp
  · rw [step_header hr ho] at e
    injection e with e
    subst e
    obtain ⟨-, e⟩ | ⟨-, -, e⟩ | ⟨-, -, -, -, e⟩ | ⟨-, -, -, -, e⟩ := header_poll_cases s
    · rw [e]
      exact .inr ⟨rfl, rfl, hpart⟩
    · simp [e, ho] at hidle
    · simp [e, ho] at hidle
    · simp [e] at hidle
  · rw [step_data hr ho] at e
    injection e with e
    subst e
    obtain ⟨-, e⟩ | ⟨-, -, e⟩ | ⟨-, -, -, -, e⟩ | ⟨-, -, -, -, -, e⟩ | ⟨-, -, -, hb, hy, e⟩ :=
      data_poll_cases s s.clCur
    · rw [e]
      exact .inr ⟨rfl, rfl, hpart⟩
    · simp [e, ho] at hidle
    · simp [e, ho] at hidle
    · simp [e, ho] at hidle
    · rw [e]
      refine .inl ⟨rfl, rfl, ?_⟩
      rw [tx_of_trace_tx rfl]
      exact last_gap_completes_frame h hx ho hb hy

end Sys2Proof.Machine
end

section
/-! What the steps of a command in flight leave alone: the image and the selection (R74, R125), the parameters (R295),
and, for the steps of a burn, everything of ChipLink (R180, R207). -/

namespace Sys2Proof.Machine

/-! The frame of a command in flight -/

/-- What no step of a command in flight changes. -/
structure CommandFrame (s t : State) : Prop where
  img : t.img = s.img
  imgValid : t.imgValid = s.imgValid
  sel : t.sel = s.sel
  busSel : t.busSel = s.busSel
  busPin : t.busPin = s.busPin
  cfg : t.cfg = s.cfg
  cmdIn : t.cmdIn = s.cmdIn
  restartIn : t.restartIn = s.restartIn

section
variable (s : State)

/-- A step that writes none of the fields of the frame has the same proof of it. -/
theorem CommandFrame.refl : CommandFrame s s := ⟨rfl, rfl, rfl, rfl, rfl, rfl, rfl, rfl⟩

theorem notifyWait_frame : CommandFrame s s.notifyWait := by
  rw [notifyWait_eq]
  exact { CommandFrame.refl s with }

theorem notifyRelease_frame : CommandFrame s s.notifyRelease := { CommandFrame.refl s with }

theorem header_poll_frame : CommandFrame s (s.poll s.cfg.hdrTimeout State.headerEdge) := by
  obtain ⟨-, e⟩ | ⟨-, -, e⟩ | ⟨-, -, -, -, e⟩ | ⟨-, -, -, -, e⟩ := header_poll_cases s <;> rw [e] <;>
    exact { CommandFrame.refl s with }

theorem data_poll_frame (d : Byte) : CommandFrame s (s.poll s.cfg.dataTimeout (State.dataEdge d)) := by
  obtain ⟨-, e⟩ | ⟨-, -, e⟩ | ⟨-, -, -, -, e⟩ | ⟨-, -, -, -, -, e⟩ | ⟨-, -, -, -, -, e⟩ := data_poll_cases s d <;>
    rw [e] <;> exact { CommandFrame.refl s with }

end

/-! The frame of a burn -/

/-- The events a step of a burn can show: a transaction with the EEPROM or a report. -/
def Event.ofBurn : Event → Bool
  | .eeProbe _ | .eeWrite _ _ | .eeRead _ _ | .failure _ _ | .firstMismatch _ _ _ => true
  | .wdtKick | .clkSample _ | .transferStart | .tx _ => false

/-- None of the three views of a trace sees the events of a burn. -/
theorem views_of_burn {new : List Event} (h : ∀ e ∈ new, e.ofBurn = true) (r : List Event) :
    txOf (new ++ r) = txOf r ∧ kickCount (new ++ r) = kickCount r ∧ sampleCount (new ++ r) = sampleCount r := by
  induction new with
  | nil => exact ⟨rfl, rfl, rfl⟩
  | cons e new ih =>
    obtain ⟨he, hnew⟩ := List.forall_mem_cons.mp h
    cases e with
    | eeProbe | eeWrite | eeRead | failure | firstMismatch => exact ih hnew
    | wdtKick | clkSample | transferStart | tx => cases he

/-- What no step of a burn changes, and that it shows nothing but events of a burn. -/
structure BurnFrame (s t : State) : Prop extends CommandFrame s t where
  clNcnt : t.clNcnt = s.clNcnt
  clTmo : t.clTmo = s.clTmo
  clPrev : t.clPrev = s.clPrev
  clEdge : t.clEdge = s.clEdge
  clByte : t.clByte = s.clByte
  clBit : t.clBit = s.clBit
  clCur : t.clCur = s.clCur
  sda : t.sda = s.sda
  notifyN : t.notifyN = s.notifyN
  irqLock : t.irqLock = s.irqLock
  clkIn : t.clkIn = s.clkIn
  shown : ∃ new, t.trace = new ++ s.trace ∧ ∀ e ∈ new, Event.ofBurn e = true

theorem BurnFrame.views {s t : State} (f : BurnFrame s t) :
    t.tx = s.tx ∧ kickCount t.trace = kickCount s.trace ∧ sampleCount t.trace = sampleCount s.trace := by
  obtain ⟨new, e, hnew⟩ := f.shown
  obtain ⟨htx, hkick, hsample⟩ := views_of_burn hnew s.trace
  rw [State.tx, State.tx, e, htx]
  exact ⟨rfl, hkick, hsample⟩

theorem BurnFrame.refl (s : State) : BurnFrame s s :=
  { CommandFrame.refl s with
    clNcnt := rfl, clTmo := rfl, clPrev := rfl, clEdge := rfl, clByte := rfl, clBit := rfl, clCur := rfl, sda := rfl
    notifyN := rfl, irqLock := rfl, clkIn := rfl, shown := ⟨[], rfl, by simp⟩ }

theorem probe_burnFrame (s : State) : BurnFrame s s.probe := by
  obtain ⟨-, e⟩ | ⟨-, e⟩ := probe_cases s <;> rw [e] <;>
    exact { BurnFrame.refl s with shown := ⟨[_], rfl, by simp [Event.ofBurn]⟩ }

theorem writeChunk_burnFrame (s : State) : BurnFrame s s.writeChunk := by
  obtain ⟨-, e⟩ | ⟨-, e⟩ := writeChunk_cases s <;> rw [e] <;>
    exact { BurnFrame.refl s with shown := ⟨[_], rfl, by simp [Event.ofBurn]⟩ }

theorem verifyChunk_burnFrame {s : State} (ho : s.op = .eeVerify) : BurnFrame s s.verifyChunk := by
  obtain ⟨m, d, new, hn, hc⟩ := verifyChunk_cases s
  have hnew : ∀ e ∈ new, Event.ofBurn e = true := by
    intro e he
    obtain ⟨x, y, z, rfl⟩ := hn e he
    rfl
  obtain ⟨e, -⟩ | ⟨x, e, -⟩ := hc
  · rw [e, verifyAdvance_eq]
    exact
      { BurnFrame.refl s with
        shown := ⟨new ++ [_], List.append_cons new _ _, List.forall_mem_append.mpr ⟨hnew, by simp [Event.ofBurn]⟩⟩ }
  · rw [e, raise_of_not_inTransfer (by simp [ho, Op.inTransfer])]
    exact
      { BurnFrame.refl s with
        shown := ⟨_ :: (new ++ [_]), congrArg _ (List.append_cons new _ _),
          List.forall_mem_cons.mpr ⟨rfl, List.forall_mem_append.mpr ⟨hnew, by simp [Event.ofBurn]⟩⟩⟩ }

/-- A move of a burn keeps its frame. -/
theorem Move.burnFrame {s t : State} (m : Move s t) (hr : s.restartIn = false)
    (ho : s.op = .eeProbe ∨ s.op = .eeWrite ∨ s.op = .eeVerify) : BurnFrame s t := by
  cases m with
  | restart h => simp [h] at hr
  | probe => exact probe_burnFrame s
  | write => exact writeChunk_burnFrame s
  | verify _ hv => exact verifyChunk_burnFrame hv
  | wait _ hi | select _ hi | burn _ hi | burnNoImage _ hi | toggle _ hi | replace _ hi | illegal _ hi =>
    simp [hi] at ho
  | notifyRelease _ hi | notifyWait _ hi | header _ hi | data _ hi => simp [hi] at ho

/-- A move of a command in flight keeps its frame. -/
theorem Move.commandFrame {s t : State} (m : Move s t) (hr : s.restartIn = false) (ho : s.op ≠ .idle) :
    CommandFrame s t := by
  cases m with
  | restart h => simp [h] at hr
  | wait _ hi | select _ hi | burn _ hi | burnNoImage _ hi | toggle _ hi | replace _ hi | illegal _ hi =>
    exact absurd hi ho
  | notifyRelease => exact notifyRelease_frame s
  | notifyWait => exact notifyWait_frame s
  | header => exact header_poll_frame s
  | data => exact data_poll_frame s _
  | probe => exact (probe_burnFrame s).toCommandFrame
  | write => exact (writeChunk_burnFrame s).toCommandFrame
  | verify _ hv => exact (verifyChunk_burnFrame hv).toCommandFrame

/-- Settles O40: the frame of a burn, and its events counted. -/
theorem burnLeavesChipLinkAlone : Obligations.BurnLeavesChipLinkAlone := by
  intro s t hr ho e
  have f := (move_of_step e).burnFrame hr ho
  obtain ⟨-, hkick, hsample⟩ := f.views
  exact ⟨f.img, f.imgValid, f.sel, f.busSel, f.busPin, f.clNcnt, f.clTmo, f.clPrev, f.clEdge, f.clByte, f.clBit,
    f.clCur, f.sda, f.notifyN, f.irqLock, f.clkIn, f.cmdIn, hkick, hsample⟩

/-! The acceptance of a command -/

/-- What the acceptance of SELECT can do to a state: refuse it, or start the transfer on a slot. -/
theorem selectStep_keeps (s : State) (n : BitVec 4) :
    (s.selectStep n State.transferStart).img = s.img ∧
      (s.selectStep n State.transferStart).imgValid = s.imgValid ∧
      (s.selectStep n State.transferStart).cfg = s.cfg := by
  obtain ⟨-, e⟩ | ⟨-, -, e⟩ | ⟨-, -, e⟩ := selectStep_cases s n State.transferStart <;> rw [e] <;>
    exact ⟨rfl, rfl, rfl⟩

/-- Settles O11: a busy block by the frame of a command in flight, an idle one by its moves. -/
theorem onlyReplaceImageWritesImage : Obligations.OnlyReplaceImageWritesImage := by
  refine ⟨fun s t hr e ho => ?_, fun s t hr e ho => ?_⟩
  · have f := (move_of_step e).commandFrame hr ho
    exact ⟨f.img, f.imgValid, f.sel⟩
  · cases move_of_step e with
    | restart h => simp [h] at hr
    | @replace _ _ r rest hc hd => exact .inr ⟨r, rest, hc, hd, rfl, rfl, rfl⟩
    | select =>
      obtain ⟨himg, hvalid, -⟩ := selectStep_keeps { s with cmdIn := _ } _
      exact .inl ⟨himg, hvalid⟩
    | wait | burn | burnNoImage | toggle | illegal => exact .inl ⟨rfl, rfl⟩
    | notifyRelease _ hi | notifyWait _ hi | header _ hi | data _ hi | probe _ hi | write _ hi | verify _ hi =>
      simp [hi] at ho

/-- Settles O54: the moves of an idle block one by one, the others by their frame. -/
theorem parametersNeverChange : Obligations.ParametersNeverChange := by
  intro s t e
  have m := move_of_step e
  cases hr : s.restartIn with
  | true =>
    rw [step_restart hr] at e
    injection e with e
    rw [← e, State.restart_cfg]
  | false =>
    by_cases ho : s.op = .idle
    · cases m with
      | select => exact (selectStep_keeps { s with cmdIn := _ } _).2.2
      | restart | wait | burn | burnNoImage | toggle | replace | illegal => rfl
      | notifyRelease _ hi | notifyWait _ hi | header _ hi | data _ hi | probe _ hi | write _ hi | verify _ hi =>
        simp [hi] at ho
    · exact (m.commandFrame hr ho).cfg

end Sys2Proof.Machine
end

section
/-! The burn, step by step: what it has written (R62), the shape of its transactions (R94), its independence of the bus
select (R207). -/

namespace Sys2Proof.Machine

/-! What a burn has written -/

/-- The burn invariant speaks of the write and the verify phase alone. -/
theorem burnInv_of_op {t : State} (hw : t.op ≠ .eeWrite) (hv : t.op ≠ .eeVerify) : t.BurnInv :=
  ⟨fun e => absurd e hw, fun e => absurd e hv⟩

section
variable {s : State}

theorem selectStep_burnInv (n : BitVec 4) : (s.selectStep n State.transferStart).BurnInv := by
  obtain ⟨-, e⟩ | ⟨-, -, e⟩ | ⟨-, -, e⟩ := selectStep_cases s n State.transferStart <;> rw [e] <;>
    exact burnInv_of_op (by simp) (by simp)

theorem header_poll_burnInv (ho : s.op = .xferHeader) : (s.poll s.cfg.hdrTimeout State.headerEdge).BurnInv := by
  obtain ⟨-, e⟩ | ⟨-, -, e⟩ | ⟨-, -, -, -, e⟩ | ⟨-, -, -, -, e⟩ := header_poll_cases s <;> rw [e] <;>
    exact burnInv_of_op (by simp [ho]) (by simp [ho])

theorem data_poll_burnInv (ho : s.op = .xferData) (d : Byte) :
    (s.poll s.cfg.dataTimeout (State.dataEdge d)).BurnInv := by
  obtain ⟨-, e⟩ | ⟨-, -, e⟩ | ⟨-, -, -, -, e⟩ | ⟨-, -, -, -, -, e⟩ | ⟨-, -, -, -, -, e⟩ := data_poll_cases s d <;>
    rw [e] <;> exact burnInv_of_op (by simp [ho]) (by simp [ho])

/-- The write phase begins with nothing written. -/
theorem probe_burnInv (ho : s.op = .eeProbe) : s.probe.BurnInv := by
  obtain ⟨-, e⟩ | ⟨-, e⟩ := probe_cases s
  · rw [e]
    exact ⟨fun _ a ha => absurd ha (Nat.not_lt_zero a), by simp⟩
  · rw [e]
    exact burnInv_of_op (by simp [ho]) (by simp [ho])

/-- A write step adds its chunk to what has been written. -/
theorem writeChunk_burnInv (hb : s.BurnInv) (ho : s.op = .eeWrite) (hc : chunkDefined s.cfg s.eeAddr.toNat = true) :
    s.writeChunk.BurnInv := by
  have hread : ∀ a, a < s.eeAddr.toNat + chunkLen s.cfg s.eeAddr.toNat → s.writeChunk.ee.read a = s.img.read a := by
    intro a ha
    rw [writeChunk_ee_read]
    split
    · rfl
    · exact hb.written ho a (by omega)
  have hend := chunk_end_toNat hc
  obtain ⟨hlast, e⟩ | ⟨-, e⟩ := writeChunk_cases s
  · rw [e] at hread ⊢
    exact ⟨by simp, fun _ a ha => hread a (by rwa [hlast])⟩
  · rw [e] at hread ⊢
    exact ⟨fun _ a ha => hread a (by rwa [← hend]), by simp [ho]⟩

/-- A verify step writes nothing. -/
theorem verifyChunk_burnInv (hb : s.BurnInv) (ho : s.op = .eeVerify) : s.verifyChunk.BurnInv := by
  have f := verifyChunk_burnFrame ho
  refine ⟨fun e => ?_, fun _ a ha => ?_⟩
  · obtain e' | e' := verifyChunk_op (s := s) <;> simp [e', ho] at e
  · rw [verifyChunk_ee, f.img]
    exact hb.verifying ho a (by rwa [f.cfg] at ha)

end

/-- Every move keeps the burn invariant. -/
theorem Move.burnInv {s t : State} (m : Move s t) (hb : s.BurnInv) : t.BurnInv := by
  cases m with
  | wait => exact hb
  | select => exact selectStep_burnInv _
  | restart | burn | burnNoImage | illegal => exact burnInv_of_op (by simp) (by simp)
  | toggle _ ho => exact burnInv_of_op (by simp [ho]) (by simp [ho])
  | replace _ ho => exact burnInv_of_op (by simp [ho]) (by simp [ho])
  | notifyRelease => exact burnInv_of_op (by simp) (by simp)
  | notifyWait _ ho => exact burnInv_of_op (by simp [notifyWait_op, ho]) (by simp [notifyWait_op, ho])
  | header _ ho => exact header_poll_burnInv ho
  | data _ ho => exact data_poll_burnInv ho _
  | probe _ ho => exact probe_burnInv ho
  | write _ ho hc => exact writeChunk_burnInv hb ho hc
  | verify _ ho => exact verifyChunk_burnInv hb ho

/-- Settles O44: the moves of a step keep the burn invariant, one by one. -/
theorem burnContentInvariant : Obligations.BurnContentInvariant :=
  fun _ _ _ hb e => (move_of_step e).burnInv hb

/-! The shape of the transactions -/

/-- A transaction with the EEPROM is of a chunk (R94); other events are of any shape. -/
def Event.Shaped (p : Params) : Event → Prop
  | .eeWrite a v => a % p.eePage = 0 ∧ 1 ≤ v.length ∧ v.length ≤ p.eePage ∧ a + v.length ≤ limit p
  | .eeRead a v => a % p.eePage = 0 ∧ 1 ≤ v.length ∧ v.length ≤ p.eePage ∧ a + v.length ≤ limit p
  | .wdtKick | .clkSample _ | .transferStart | .tx _ | .eeProbe _ | .failure _ _ | .firstMismatch _ _ _ => True

/-- `t` shows what `s` has shown and then events of the shape of R94. -/
def ShowsShaped (s t : State) : Prop := ∃ new, t.trace = new ++ s.trace ∧ ∀ e ∈ new, Event.Shaped s.cfg e

section
variable {s : State}

theorem showsShaped_of_trace_eq {t : State} (h : t.trace = s.trace) : ShowsShaped s t :=
  ⟨[], h, by simp⟩

theorem showsShaped_of_event {t : State} {e : Event} (h : t.trace = e :: s.trace) (he : e.Shaped s.cfg) :
    ShowsShaped s t :=
  ⟨[e], h, List.forall_mem_singleton.mpr he⟩

theorem chunk_shape {p : Params} {a n : Nat} (hp : 1 ≤ p.eePage) (hd : chunkDefined p a = true)
    (hn : n = chunkLen p a) : a % p.eePage = 0 ∧ 1 ≤ n ∧ n ≤ p.eePage ∧ a + n ≤ limit p := by
  subst hn
  exact ⟨(chunkDefined_iff.mp hd).2, chunkLen_pos hd hp, chunkLen_le_page p a, chunk_end_le_limit hd⟩

theorem selectStep_showsShaped (n : BitVec 4) : ShowsShaped s (s.selectStep n State.transferStart) := by
  obtain ⟨-, e⟩ | ⟨-, -, e⟩ | ⟨-, -, e⟩ := selectStep_cases s n State.transferStart <;> rw [e] <;>
    exact showsShaped_of_event rfl trivial

theorem notifyWait_showsShaped : ShowsShaped s s.notifyWait := by
  obtain ⟨-, e⟩ | ⟨-, e⟩ := notifyWait_cases s
  · exact showsShaped_of_event (e := .wdtKick) (by rw [e]) trivial
  · exact showsShaped_of_trace_eq (by rw [e])

theorem poll_showsShaped {b : Nat} {edge : State → State} (hedge : DrivesOneLevel edge) :
    ShowsShaped s (s.poll b edge) := by
  by_cases h0 : s.clTmo = 0
  · exact showsShaped_of_event (poll_trace_of_exhausted b edge h0) trivial
  · obtain ⟨vs, e⟩ := poll_trace_of_budget (b := b) hedge (Nat.pos_of_ne_zero h0)
    refine ⟨vs.map .tx ++ [.clkSample s.clkLevel, .wdtKick], by rw [e, List.append_assoc]; rfl, ?_⟩
    refine List.forall_mem_append.mpr ⟨fun x hx => ?_, by simp [Event.Shaped]⟩
    obtain ⟨v, -, rfl⟩ := List.mem_map.mp hx
    trivial

theorem probe_showsShaped : ShowsShaped s s.probe := by
  obtain ⟨-, e⟩ | ⟨-, e⟩ := probe_cases s <;> rw [e] <;> exact showsShaped_of_event rfl trivial

variable (hp : 1 ≤ s.cfg.eePage) (hc : chunkDefined s.cfg s.eeAddr.toNat = true)
include hp hc

theorem writeChunk_showsShaped : ShowsShaped s s.writeChunk :=
  showsShaped_of_event (writeChunk_trace s) (chunk_shape hp hc (imageChunk_length s _))

theorem verifyChunk_showsShaped : ShowsShaped s s.verifyChunk := by
  have hread : ∀ {r : List Event}, (∀ e ∈ r, e.Shaped s.cfg) → ∀ e ∈ r ++
      [Event.eeRead s.eeAddr.toNat (s.readAnswer s.eeAddr.toNat (chunkLen s.cfg s.eeAddr.toNat))], e.Shaped s.cfg :=
    fun hr => List.forall_mem_append.mpr
      ⟨hr, List.forall_mem_singleton.mpr (chunk_shape hp hc (readAnswer_length s _ _))⟩
  obtain ⟨m, d, new, hn, hcase⟩ := verifyChunk_cases s
  have hnew : ∀ e ∈ new, Event.Shaped s.cfg e := by
    intro e he
    obtain ⟨x, y, z, rfl⟩ := hn e he
    trivial
  obtain ⟨e, -⟩ | ⟨x, e, -⟩ := hcase
  · rw [e, verifyAdvance_eq]
    exact ⟨_, List.append_cons new _ _, hread hnew⟩
  · rw [e]
    exact ⟨.failure .verifyMismatch (some x) :: _, congrArg _ (List.append_cons new _ _),
      List.forall_mem_cons.mpr ⟨trivial, hread hnew⟩⟩

end

theorem Move.showsShaped {s t : State} (m : Move s t) (hp : 1 ≤ s.cfg.eePage) : ShowsShaped s t := by
  cases m with
  | restart | wait | burn | toggle | replace | notifyRelease => exact showsShaped_of_trace_eq rfl
  | burnNoImage | illegal => exact showsShaped_of_event rfl trivial
  | select => exact selectStep_showsShaped _
  | notifyWait => exact notifyWait_showsShaped
  | header => exact poll_showsShaped drivesOneLevel_headerEdge
  | data => exact poll_showsShaped (drivesOneLevel_dataEdge _)
  | probe => exact probe_showsShaped
  | write _ _ hc => exact writeChunk_showsShaped hp hc
  | verify _ _ hc => exact verifyChunk_showsShaped hp hc

/-- Settles O42: what a move adds to the trace is of the shape of R94. -/
theorem eepromTransactionShapes : Obligations.EepromTransactionShapes := by
  intro s t h e
  obtain ⟨-, -, -, -, hp, -⟩ := params_wf_iff.mp h.cfg_wf
  obtain ⟨new, htr, hnew⟩ := (move_of_step e).showsShaped hp
  exact ⟨new, htr, fun a v hm => hnew (.eeWrite a v) hm, fun a v hm => hnew (.eeRead a v) hm⟩

/-! The bus select -/

/-- The same state with another bus select and other bus pins. -/
def State.onBus (s : State) (b : BusSel) (p : BitVec 2) : State := { s with busSel := b, busPin := p }

theorem writeChunk_of_last {s : State} (h : s.eeAddr.toNat + chunkLen s.cfg s.eeAddr.toNat = limit s.cfg) :
    s.writeChunk = { s.eeWrite s.eeAddr.toNat (s.imageChunk s.eeAddr.toNat) with
      eeAddr := 0, eeMism := 0, eeMaddr := 0, op := .eeVerify } := if_pos h

theorem writeChunk_of_not_last {s : State} (h : s.eeAddr.toNat + chunkLen s.cfg s.eeAddr.toNat ≠ limit s.cfg) :
    s.writeChunk = { s.eeWrite s.eeAddr.toNat (s.imageChunk s.eeAddr.toNat) with
      eeAddr := BitVec.ofNat 13 (s.eeAddr.toNat + chunkLen s.cfg s.eeAddr.toNat) } := if_neg h

section
variable (s : State) (b : BusSel) (p : BitVec 2)

theorem probe_onBus : (s.onBus b p).probe = s.probe.onBus b p := by
  cases h : s.probeAnswer with
  | true =>
    rw [probe_of_present h, probe_of_present (s := s.onBus b p) h]
    rfl
  | false =>
    rw [probe_of_absent h, probe_of_absent (s := s.onBus b p) h]
    rfl

theorem writeChunk_onBus : (s.onBus b p).writeChunk = s.writeChunk.onBus b p := by
  by_cases h : s.eeAddr.toNat + chunkLen s.cfg s.eeAddr.toNat = limit s.cfg
  · rw [writeChunk_of_last h, writeChunk_of_last (s := s.onBus b p) h]
    rfl
  · rw [writeChunk_of_not_last h, writeChunk_of_not_last (s := s.onBus b p) h]
    rfl

theorem compare_onBus (a : Nat) (ps : List (Byte × Byte)) :
    (s.onBus b p).compare a ps = ((s.compare a ps).1.onBus b p, (s.compare a ps).2) := by
  induction ps generalizing s a with
  | nil => rfl
  | cons q ps ih =>
    obtain ⟨e, r⟩ := q
    by_cases hr : r = e
    · subst hr
      rw [compare_cons_eq, compare_cons_eq]
      exact ih s (a + 1)
    · by_cases hm : s.eeMism = 0
      · rw [compare_cons_first ps hr hm, compare_cons_first (s := s.onBus b p) ps hr hm]
        exact ih { s with eeMism := 1, eeMaddr := BitVec.ofNat 12 a, trace := .firstMismatch a e r :: s.trace } (a + 1)
      · rw [compare_cons_second ps hr hm, compare_cons_second (s := s.onBus b p) ps hr hm]
        rfl

theorem verifyAdvance_onBus (a : Nat) : (s.onBus b p).verifyAdvance a = (s.verifyAdvance a).onBus b p := by
  rw [verifyAdvance_eq, verifyAdvance_eq]
  rfl

theorem verifyChunk_onBus : (s.onBus b p).verifyChunk = s.verifyChunk.onBus b p := by
  have hcmp := compare_onBus (s.takeRead s.eeAddr.toNat (chunkLen s.cfg s.eeAddr.toNat)) b p s.eeAddr.toNat
    ((s.imageChunk s.eeAddr.toNat).zip (s.readAnswer s.eeAddr.toNat (chunkLen s.cfg s.eeAddr.toNat)))
  cases h : (s.takeRead s.eeAddr.toNat (chunkLen s.cfg s.eeAddr.toNat)).compare s.eeAddr.toNat
    ((s.imageChunk s.eeAddr.toNat).zip (s.readAnswer s.eeAddr.toNat (chunkLen s.cfg s.eeAddr.toNat))) with
  | mk u aborted =>
    rw [h] at hcmp
    cases aborted with
    | true => rw [verifyChunk_of_aborts h, verifyChunk_of_aborts (s := s.onBus b p) hcmp]
    | false =>
      rw [verifyChunk_of_passes h, verifyChunk_of_passes (s := s.onBus b p) hcmp, verifyAdvance_onBus]
      rfl

end

/-- A move of a burn leads from the state on another bus to the same next state on that bus. -/
theorem Move.step_onBus {s t : State} (m : Move s t) (hr : s.restartIn = false)
    (ho : s.op = .eeProbe ∨ s.op = .eeWrite ∨ s.op = .eeVerify) (b : BusSel) (p : BitVec 2) :
    step (s.onBus b p) = .next (t.onBus b p) := by
  cases m with
  | restart h => simp [h] at hr
  | probe _ hp => rw [step_probe (s := s.onBus b p) hr hp, probe_onBus]
  | write _ hw hc => rw [step_write (s := s.onBus b p) hr hw hc, writeChunk_onBus]
  | verify _ hv hc => rw [step_verify (s := s.onBus b p) hr hv hc, verifyChunk_onBus]
  | wait _ hi | select _ hi | burn _ hi | burnNoImage _ hi | toggle _ hi | replace _ hi | illegal _ hi =>
    simp [hi] at ho
  | notifyRelease _ hi | notifyWait _ hi | header _ hi | data _ hi => simp [hi] at ho

theorem exec_burn_onBus {s t : State} (e : exec .burn s = .next t) (b : BusSel) (p : BitVec 2) :
    exec .burn (s.onBus b p) = .next (t.onBus b p) := by
  obtain ⟨ho, -⟩ := whenIdle_next.mp e
  cases hv : s.imgValid with
  | true =>
    rw [burnStartsProbing s ho hv] at e
    injection e with e
    rw [burnStartsProbing (s.onBus b p) ho hv, ← e]
    rfl
  | false =>
    rw [exec_burn_of_noImage ho hv] at e
    injection e with e
    rw [exec_burn_of_noImage (s := s.onBus b p) ho hv, ← e]
    rfl

/-- Settles O41: the steps and the acceptance of a burn commute with `onBus`. -/
theorem burnIgnoresBusSelect : Obligations.BurnIgnoresBusSelect :=
  fun _ _ b p hr => ⟨fun ho e => (move_of_step e).step_onBus hr ho b p, fun e => exec_burn_onBus e b p⟩

end Sys2Proof.Machine
end

section
/-! The contexts: where the clock is looked at (R153), how the locked context is entered and left (R266); and that there
is always a next move (R13). -/

namespace Sys2Proof.Machine

/-! Outside the polling phases -/

/-- What a step outside the polling phases does to ChipLink's side: the clock is not looked at and SDA is high. -/
structure ClockIgnored (s t : State) : Prop where
  clkIn : t.clkIn = s.clkIn
  samples : sampleCount t.trace = sampleCount s.trace
  sda : t.sda = true
  clByte : t.clByte = s.clByte
  clBit : t.clBit = s.clBit
  clEdge : t.clEdge = s.clEdge ∨ t.op = .xferHeader ∧ t.clEdge = 0
  tx : t.tx = s.tx ∨ t.op = .xferNotify ∧ t.tx = []

/-- The requests to come are no part of it. -/
theorem ClockIgnored.of_cmdIn {s t : State} {rest : List Request} (c : ClockIgnored { s with cmdIn := rest } t) :
    ClockIgnored s t := { c with }

section
variable {s t : State} (hs : s.sda = true)
include hs

/-- A step that writes none of these has the same proof of it. -/
theorem ClockIgnored.refl : ClockIgnored s s := ⟨rfl, rfl, hs, rfl, rfl, .inl rfl, .inl rfl⟩

theorem raise_clockIgnored (ho : s.op = .idle) (st : Status) (info : Option Nat) :
    ClockIgnored s (s.raise st info) := by
  rw [raise_of_idle ho]
  exact { ClockIgnored.refl hs with }

theorem selectStep_clockIgnored (ho : s.op = .idle) (n : BitVec 4) :
    ClockIgnored s (s.selectStep n State.transferStart) := by
  obtain ⟨-, e⟩ | ⟨-, -, e⟩ | ⟨-, -, e⟩ := selectStep_cases s n State.transferStart
  · rw [e]
    exact raise_clockIgnored hs ho _ _
  · rw [e]
    exact raise_clockIgnored hs ho _ _
  · rw [e]
    exact { ClockIgnored.refl hs with sda := rfl, clEdge := .inl rfl, tx := .inr ⟨rfl, rfl⟩ }

theorem notifyWait_clockIgnored : ClockIgnored s s.notifyWait := by
  obtain ⟨-, e⟩ | ⟨-, e⟩ := notifyWait_cases s <;> rw [e] <;> exact { ClockIgnored.refl hs with }

theorem notifyRelease_clockIgnored : ClockIgnored s s.notifyRelease :=
  { ClockIgnored.refl hs with clEdge := .inr ⟨rfl, rfl⟩, tx := .inl rfl }

/-- A step of a burn touches nothing of ChipLink. -/
theorem BurnFrame.clockIgnored (f : BurnFrame s t) : ClockIgnored s t := by
  obtain ⟨htx, -, hsample⟩ := f.views
  exact ⟨f.clkIn, hsample, by rw [f.sda, hs], f.clByte, f.clBit, .inl f.clEdge, .inl htx⟩

theorem Move.clockIgnored (m : Move s t) (hr : s.restartIn = false) (hp : s.op.polling = false) : ClockIgnored s t := by
  cases m with
  | restart h => simp [h] at hr
  | wait => exact ClockIgnored.refl hs
  | @select _ ho _ rest => exact (selectStep_clockIgnored (s := { s with cmdIn := rest }) hs ho _).of_cmdIn
  | @burnNoImage _ ho _ rest => exact (raise_clockIgnored (s := { s with cmdIn := rest }) hs ho _ _).of_cmdIn
  | @illegal _ ho _ rest => exact (raise_clockIgnored (s := { s with cmdIn := rest }) hs ho _ _).of_cmdIn
  | burn => exact { ClockIgnored.refl hs with clEdge := .inl rfl, tx := .inl rfl }
  | toggle | replace => exact { ClockIgnored.refl hs with }
  | notifyRelease => exact notifyRelease_clockIgnored hs
  | notifyWait => exact notifyWait_clockIgnored hs
  | header _ ho | data _ ho => simp [ho, Op.polling] at hp
  | probe => exact (probe_burnFrame s).clockIgnored hs
  | write => exact (writeChunk_burnFrame s).clockIgnored hs
  | verify _ ho => exact (verifyChunk_burnFrame ho).clockIgnored hs

end

/-- Settles O25: the moves outside the polling phases, from a state whose SDA the invariant holds high. -/
theorem clockIgnoredOutsidePolling : Obligations.ClockIgnoredOutsidePolling := by
  intro s t h hr hp e
  have c := (move_of_step e).clockIgnored (h.sda_high hp) hr hp
  exact ⟨c.clkIn, c.samples, c.sda, c.clByte, c.clBit, c.clEdge, c.tx⟩

/-! The locked context -/

/-- Only an accepted SELECT enters a transfer. -/
theorem Move.enters_transfer {s t : State} (m : Move s t) (hr : s.restartIn = false) (hs : s.op.inTransfer = false)
    (ht : t.op.inTransfer = true) : s.op = .idle ∧ t.op = .xferNotify ∧
      ∃ r rest n, s.cmdIn = r :: rest ∧ decode (.command r) = .ok (.select n) := by
  cases m with
  | restart h => simp [h] at hr
  | @select _ ho r rest hc n hd =>
    refine ⟨ho, ?_, r, rest, n, hc, hd⟩
    obtain ⟨-, e⟩ | ⟨-, -, e⟩ | ⟨-, -, e⟩ := selectStep_cases { s with cmdIn := rest } n State.transferStart
    · rw [e] at ht
      cases ht
    · rw [e] at ht
      cases ht
    · rw [e]
      rfl
  | wait => simp [hs] at ht
  | toggle _ ho => simp [ho, Op.inTransfer] at ht
  | replace _ ho => simp [ho, Op.inTransfer] at ht
  | burn | burnNoImage | illegal => cases ht
  | notifyRelease _ ho | notifyWait _ ho | header _ ho | data _ ho => simp [ho, Op.inTransfer] at hs
  | probe _ ho => simp [probe_op_inTransfer ho] at ht
  | write _ ho => simp [writeChunk_op_inTransfer ho] at ht
  | verify _ ho => simp [verifyChunk_op_inTransfer ho] at ht

/-- A transfer is left by the timeout abort or by the last gap. -/
theorem Move.leaves_transfer {s t : State} (m : Move s t) (h : s.Inv) (hr : s.restartIn = false)
    (hs : s.op.inTransfer = true) (ht : t.op.inTransfer = false) : t.op = .idle ∧
      ((s.clTmo = 0 ∧ t.status = .transferTimeout ∧ t.result = false) ∨
        (s.op = .xferData ∧ t.clByte.toNat = 512 ∧ t.status = .ok ∧ t.result = true)) := by
  cases m with
  | restart h => simp [h] at hr
  | header _ ho =>
    obtain ⟨h0, e⟩ | ⟨-, -, e⟩ | ⟨-, -, -, -, e⟩ | ⟨-, -, -, -, e⟩ := header_poll_cases s
    · rw [e]
      exact ⟨rfl, .inl ⟨h0, rfl, rfl⟩⟩
    · simp [e, ho, Op.inTransfer] at ht
    · simp [e, ho, Op.inTransfer] at ht
    · simp [e, Op.inTransfer] at ht
  | data _ ho =>
    obtain ⟨-, hy', -, -⟩ := h.data ho
    obtain ⟨h0, e⟩ | ⟨-, -, e⟩ | ⟨-, -, -, -, e⟩ | ⟨-, -, -, -, -, e⟩ | ⟨-, -, -, -, hy, e⟩ :=
      data_poll_cases s s.clCur
    · rw [e]
      exact ⟨rfl, .inl ⟨h0, rfl, rfl⟩⟩
    · simp [e, ho, Op.inTransfer] at ht
    · simp [e, ho, Op.inTransfer] at ht
    · simp [e, ho, Op.inTransfer] at ht
    · have hbyte : s.clByte.toNat = 511 := by omega
      rw [e]
      exact ⟨rfl, .inr ⟨ho, by simp [hbyte], rfl, rfl⟩⟩
  | notifyRelease => simp [Op.inTransfer] at ht
  | notifyWait _ ho => simp [notifyWait_op, ho, Op.inTransfer] at ht
  | wait _ ho | select _ ho | burn _ ho | burnNoImage _ ho | toggle _ ho | replace _ ho | illegal _ ho =>
    simp [ho, Op.inTransfer] at hs
  | probe _ ho | write _ ho | verify _ ho => simp [ho, Op.inTransfer] at hs

/-- Settles O26: by the invariant the lock follows the phase, so the two lemmas on the moves say when it changes. -/
theorem lockedContextEntryAndExit : Obligations.LockedContextEntryAndExit := by
  intro s t h hr e
  have m := move_of_step e
  have hs := h.irq_lock
  have ht := (m.inv h).irq_lock
  rw [hs, ht]
  exact ⟨rfl, rfl, m.enters_transfer hr, m.leaves_transfer h hr⟩

/-! There is always a next move -/

/-- At an idle block every command has a next state, but for an operand of another shape. -/
theorem exec_command_next {s : State} (ho : s.op = .idle) {r : Request} {i : Instr} (hd : decodeCommand r = .ok i) :
    ∃ t, exec i s = .next t := by
  obtain ⟨-, rfl⟩ | ⟨-, ⟨-, rfl⟩ | ⟨-, rfl⟩ | ⟨-, rfl, hw⟩⟩ := decodeCommand_ok hd
  · exact ⟨_, whenIdle_of_idle ho _⟩
  · exact ⟨_, whenIdle_of_idle ho _⟩
  · exact ⟨_, whenIdle_of_idle ho _⟩
  · exact ⟨_, exec_replaceImage_of_wf ho hw⟩

/-- The one word whose operand the decoder looks at is REPLACE_IMAGE's (R96, R121). -/
theorem decodeCommand_operandShape {r : Request} (hd : decodeCommand r = .error .operandShape) : r.cmd = 0x40 := by
  unfold decodeCommand at hd
  split at hd
  · cases hd
  · split at hd
    · cases hd
    · next ha =>
      split at hd
      · cases hd
      · split at hd
        · cases hd
        · split at hd
          · next h4 => exact cmd_eq_of_fields h4 (not_not.mp ha)
          · cases hd

/-- Settles O49: phase by phase; the invariant keeps EE_ADDR in the chunk list where ChunkLen is needed. -/
theorem noTrapFromInvariant : Obligations.NoTrapFromInvariant := by
  intro s h
  cases hr : s.restartIn with
  | true => exact .inl ⟨_, step_restart hr⟩
  | false =>
    cases ho : s.op with
    | idle =>
      cases hc : s.cmdIn with
      | nil => exact .inl ⟨_, step_no_request hr ho hc⟩
      | cons r rest =>
        cases hd : decodeCommand r with
        | ok i =>
          obtain ⟨t, e⟩ := exec_command_next (s := { s with cmdIn := rest }) ho hd
          exact .inl ⟨t, (step_request hr ho hc hd).trans e⟩
        | error x =>
          obtain ⟨n, hd'⟩ | hd' | hd' | ⟨hd', -⟩ | ⟨hd', hw⟩ | hd' := decodeCommand_cases r
          · simp [hd] at hd'
          · simp [hd] at hd'
          · simp [hd] at hd'
          · simp [hd] at hd'
          · exact .inr ⟨step_bad_operand hr ho hc hd', rfl, rfl, r, rest, rfl, decodeCommand_operandShape hd', hw⟩
          · exact .inl ⟨_, step_illegal hr ho hc hd'⟩
    | xferNotify => exact .inl ⟨_, step_notify hr ho⟩
    | xferHeader => exact .inl ⟨_, step_header hr ho⟩
    | xferData => exact .inl ⟨_, step_data hr ho⟩
    | eeProbe => exact .inl ⟨_, step_probe hr ho⟩
    | eeWrite => exact .inl ⟨_, step_write hr ho (h.chunk (.inl ho))⟩
    | eeVerify => exact .inl ⟨_, step_verify hr ho (h.chunk (.inr ho))⟩

end Sys2Proof.Machine
end

section
/-! Runs of a transfer: the notify pulse (R142, R143), a clock that stalls (R148), the bound on every transfer
(R161). -/

namespace Sys2Proof.Machine

/-- A run made longer by one step. -/
theorem run_snoc {s t u : State} {k : Nat} (e : Host.Core.run Sys2Proof.core k s = .next t) (h : step t = .next u) :
    Host.Core.run Sys2Proof.core (k + 1) s = .next u := by
  rw [run_add e, run_succ_next h]
  rfl

/-! The notify pulse -/

section
variable {s : State} (hr : s.restartIn = false) (ho : s.op = .xferNotify)
include hr ho

/-- The waits count down and show watchdog services alone (R142). -/
theorem run_notifyWait {k : Nat} (hk : k ≤ s.clNcnt) :
    ∃ tr, Host.Core.run Sys2Proof.core k s = .next { s with clNcnt := s.clNcnt - k, trace := tr } ∧
      txOf tr = txOf s.trace ∧ sampleCount tr = sampleCount s.trace := by
  induction k with
  | zero => exact ⟨s.trace, rfl, rfl, rfl⟩
  | succ k ih =>
    obtain ⟨tr, e, htx, hsample⟩ := ih (by omega)
    have hwait := step_notify (s := { s with clNcnt := s.clNcnt - k, trace := tr }) hr ho
    rw [if_neg (by change s.clNcnt - k ≠ 0; omega), notifyWait_eq] at hwait
    refine ⟨_, run_snoc e hwait, ?_, ?_⟩
    · split <;> exact htx
    · split <;> exact hsample

/-- The release follows the last wait (R143). -/
theorem run_notify : ∃ tr, Host.Core.run Sys2Proof.core (s.clNcnt + 1) s =
      .next (State.notifyRelease { s with clNcnt := 0, trace := tr }) ∧
      txOf tr = txOf s.trace ∧ sampleCount tr = sampleCount s.trace := by
  obtain ⟨tr, e, htx, hsample⟩ := run_notifyWait hr ho (le_refl s.clNcnt)
  rw [Nat.sub_self] at e
  have hrelease := step_notify (s := { s with clNcnt := 0, trace := tr }) hr ho
  rw [if_pos rfl] at hrelease
  exact ⟨tr, run_snoc e hrelease, htx, hsample⟩

end

/-- Settles O16: the waits, then the release. -/
theorem notifyPulseLength : Obligations.NotifyPulseLength := by
  intro s hr ho
  refine ⟨fun k hk => ?_, ?_⟩
  · obtain ⟨tr, e, -, -⟩ := run_notifyWait hr ho hk
    exact ⟨_, e, ho, rfl, rfl⟩
  · obtain ⟨tr, e, -, hsample⟩ := run_notify hr ho
    exact ⟨_, e, rfl, rfl, rfl, hsample⟩

/-! A polling phase, one step at a time -/

section
variable {s : State} (hr : s.restartIn = false) (hp : s.op.polling = true)
include hr hp

theorem step_of_no_edge (hpos : 0 < s.clTmo) (he : ¬(s.clPrev = true ∧ s.clkLevel = false)) :
    step s = .next s.sampled := by
  obtain ho | ho := polling_iff.mp hp
  · rw [step_header hr ho, poll_of_no_edge hpos he]
  · rw [step_data hr ho, poll_of_no_edge hpos he]

theorem step_of_exhausted (h0 : s.clTmo = 0) : step s = .next (s.raise .transferTimeout none) := by
  obtain ho | ho := polling_iff.mp hp
  · rw [step_header hr ho, poll_of_exhausted h0]
  · rw [step_data hr ho, poll_of_exhausted h0]

end

/-! A clock that stalls -/

/-- The transfer stands where it stood, with the image and TX as they were. -/
structure SamePosition (s t : State) : Prop where
  op : t.op = s.op
  restartIn : t.restartIn = s.restartIn
  clEdge : t.clEdge = s.clEdge
  clByte : t.clByte = s.clByte
  clBit : t.clBit = s.clBit
  sel : t.sel = s.sel
  img : t.img = s.img
  imgValid : t.imgValid = s.imgValid
  tx : t.tx = s.tx

theorem SamePosition.refl (s : State) : SamePosition s s := ⟨rfl, rfl, rfl, rfl, rfl, rfl, rfl, rfl, rfl⟩

/-- A sample is no move of the transfer, so what stands where the sampled state stands stands where `s` stands. -/
theorem SamePosition.of_sampled {s t : State} (p : SamePosition s.sampled t) : SamePosition s t := { p with }

/-- Samples without a falling edge use up the budget and move nothing (R146, R148). -/
theorem run_stalled {n : Nat} : ∀ {s : State} {low high : Nat} {rest : List Level}, s.restartIn = false →
    s.op.polling = true → s.clTmo = n → low + high = n → (low = 0 ∨ s.clPrev = false) →
    s.clkIn = List.replicate low false ++ List.replicate high true ++ rest →
    ∃ t, Host.Core.run Sys2Proof.core n s = .next t ∧ SamePosition s t ∧ t.clTmo = 0 ∧ t.clkIn = rest := by
  induction n with
  | zero =>
    intro s low high rest _ _ h0 hsum _ hclk
    obtain ⟨rfl, rfl⟩ : low = 0 ∧ high = 0 := by omega
    exact ⟨s, rfl, SamePosition.refl s, h0, hclk⟩
  | succ n ih =>
    intro s low high rest hr hp htmo hsum hlow hclk
    have hbudget : s.sampled.clTmo = n := by
      rw [State.sampled_clTmo, htmo]
      rfl
    have next {low' high' : Nat} (he : ¬(s.clPrev = true ∧ s.clkLevel = false)) (hsum' : low' + high' = n)
        (hlow' : low' = 0 ∨ s.clkLevel = false)
        (hclk' : s.clkIn.tail = List.replicate low' false ++ List.replicate high' true ++ rest) :
        ∃ t, Host.Core.run Sys2Proof.core (n + 1) s = .next t ∧ SamePosition s t ∧ t.clTmo = 0 ∧ t.clkIn = rest := by
      obtain ⟨t, e, hpos, h0, hrest⟩ := ih (s := s.sampled) hr hp hbudget hsum' hlow' hclk'
      exact ⟨t, by rw [run_succ_next (step_of_no_edge hr hp (by omega) he), e], hpos.of_sampled, h0, hrest⟩
    cases low with
    | succ low =>
      have hprev : s.clPrev = false := by simpa using hlow
      have hcons : s.clkIn = false :: (List.replicate low false ++ List.replicate high true ++ rest) := hclk
      exact next (low' := low) (high' := high) (by simp [hprev]) (by omega) (.inr (clkLevel_cons hcons))
        (by rw [hcons, List.tail_cons])
    | zero =>
      obtain ⟨high, rfl⟩ : ∃ h, high = h + 1 := ⟨n, by omega⟩
      have hcons : s.clkIn = true :: (List.replicate high true ++ rest) := hclk
      exact next (low' := 0) (high' := high) (by simp [clkLevel_cons hcons]) (by omega) (.inl rfl)
        (by rw [hcons, List.tail_cons]; rfl)

/-- Settles O29: the stalled samples use up the budget, and the step after them aborts. -/
theorem stalledClockTimesOut : Obligations.StalledClockTimesOut := by
  intro s low high rest hr hp hsum hlow hclk
  obtain ⟨t, e, p, h0, hrest⟩ := run_stalled hr hp rfl hsum hlow hclk
  have hpt : t.op.polling = true := by rw [p.op, hp]
  have hin : t.op.inTransfer = true := by
    obtain ho | ho := polling_iff.mp hpt <;> rw [ho] <;> rfl
  have habort := step_of_exhausted (p.restartIn.trans hr) hpt h0
  rw [raise_of_inTransfer hin] at habort
  exact ⟨_, run_snoc e habort, rfl, rfl, rfl, rfl, rfl, rfl, hrest, p.clEdge, p.clByte,
    p.clBit, p.sel, p.img, p.imgValid, p.tx⟩

/-! The bound on a transfer -/

section
variable {s : State}

theorem stepsLeft_notify (ho : s.op = .xferNotify) : s.stepsLeft = s.clNcnt + 2 +
    (if s.cfg.tmoPerEdge then 37 * s.cfg.hdrTimeout + 4608 * s.cfg.dataTimeout
      else s.cfg.hdrTimeout + s.cfg.dataTimeout) := by
  simp only [State.stepsLeft, State.pollsLeft, ho, if_true]
  omega

theorem stepsLeft_header (ho : s.op = .xferHeader) : s.stepsLeft = s.clTmo + 1 +
    (if s.cfg.tmoPerEdge then (36 - s.clEdge.toNat) * s.cfg.hdrTimeout + 4608 * s.cfg.dataTimeout
      else s.cfg.dataTimeout) := by
  simp only [State.stepsLeft, State.pollsLeft, ho, reduceCtorEq, if_false]
  split <;> omega

theorem stepsLeft_data (ho : s.op = .xferData) : s.stepsLeft = s.clTmo + 1 +
    (if s.cfg.tmoPerEdge then (4607 - (9 * s.clByte.toNat + s.clBit.toNat)) * s.cfg.dataTimeout else 0) := by
  simp only [State.stepsLeft, State.pollsLeft, ho, reduceCtorEq, if_false]
  split <;> omega

theorem stepsLeft_pos : 1 ≤ s.stepsLeft := Nat.le_add_left _ _

/-- A transfer ends with `t`, or goes on with fewer steps left. -/
def EndsOrProgresses (s t : State) : Prop := t.op = .idle ∨ t.op.inTransfer = true ∧ t.stepsLeft < s.stepsLeft

theorem notifyWait_progresses (ho : s.op = .xferNotify) (hn : 0 < s.clNcnt) : EndsOrProgresses s s.notifyWait := by
  have ho' : s.notifyWait.op = .xferNotify := by rw [notifyWait_op, ho]
  have hcount : s.notifyWait.clNcnt = s.clNcnt - 1 := by rw [notifyWait_eq]
  refine .inr ⟨by rw [ho']; rfl, ?_⟩
  rw [stepsLeft_notify ho, stepsLeft_notify ho', hcount, (notifyWait_frame s).cfg]
  omega

theorem notifyRelease_progresses (ho : s.op = .xferNotify) : EndsOrProgresses s s.notifyRelease := by
  refine .inr ⟨rfl, ?_⟩
  rw [stepsLeft_notify ho, stepsLeft_header (s := s.notifyRelease) rfl, State.notifyRelease_clTmo,
    State.notifyRelease_cfg, State.notifyRelease_clEdge]
  split
  · change _ + 1 + (36 * s.cfg.hdrTimeout + _) < _
    omega
  · omega

/-- Inside the header phase it is enough that what is left of it gets less. -/
theorem progresses_header {t : State} (ho : s.op = .xferHeader) (ho' : t.op = .xferHeader) (hcfg : t.cfg = s.cfg)
    (hlt : if s.cfg.tmoPerEdge then t.clTmo + (36 - t.clEdge.toNat) * s.cfg.hdrTimeout <
      s.clTmo + (36 - s.clEdge.toNat) * s.cfg.hdrTimeout else t.clTmo < s.clTmo) : EndsOrProgresses s t := by
  refine .inr ⟨by rw [ho']; rfl, ?_⟩
  rw [stepsLeft_header ho, stepsLeft_header ho', hcfg]
  split at hlt
  · next hp =>
    rw [if_pos hp, if_pos hp]
    omega
  · next hp =>
    rw [if_neg hp, if_neg hp]
    omega

/-- Inside the data phase likewise. -/
theorem progresses_data {t : State} (ho : s.op = .xferData) (ho' : t.op = .xferData) (hcfg : t.cfg = s.cfg)
    (hlt : if s.cfg.tmoPerEdge then
      t.clTmo + (4607 - (9 * t.clByte.toNat + t.clBit.toNat)) * s.cfg.dataTimeout <
        s.clTmo + (4607 - (9 * s.clByte.toNat + s.clBit.toNat)) * s.cfg.dataTimeout
      else t.clTmo < s.clTmo) : EndsOrProgresses s t := by
  refine .inr ⟨by rw [ho']; rfl, ?_⟩
  rw [stepsLeft_data ho, stepsLeft_data ho', hcfg]
  split at hlt
  · next hp =>
    rw [if_pos hp, if_pos hp]
    omega
  · next hp =>
    rw [if_neg hp, if_neg hp]
    omega

/-- A reloaded budget is paid for by the edge that is counted. -/
theorem reload_lt {tmo k k' b : Nat} (hpos : 0 < tmo) (hk : k = k' + 1) : b + k' * b < tmo + k * b := by
  subst hk
  rw [Nat.succ_mul]
  omega

variable (h : s.Inv)
include h

theorem header_poll_progresses (ho : s.op = .xferHeader) :
    EndsOrProgresses s (s.poll s.cfg.hdrTimeout State.headerEdge) := by
  obtain ⟨hlt, -⟩ := h.header ho
  obtain ⟨-, e⟩ | ⟨hpos, -, e⟩ | ⟨hpos, -, -, hk, e⟩ | ⟨hpos, -, -, hk, e⟩ := header_poll_cases s
  · rw [e]
    exact .inl rfl
  · rw [e]
    refine progresses_header ho ho rfl ?_
    rw [State.sampled_clTmo, State.sampled_clEdge]
    split <;> omega
  · have hcount : (BitVec.ofNat 6 (s.clEdge.toNat + 1)).toNat = s.clEdge.toNat + 1 := by
      rw [BitVec.toNat_ofNat, Nat.mod_eq_of_lt (by omega)]
    rw [e]
    refine progresses_header ho ho rfl ?_
    simp only [hcount]
    split
    · exact reload_lt hpos (by omega)
    · omega
  · rw [e]
    refine .inr ⟨rfl, ?_⟩
    rw [stepsLeft_header ho, stepsLeft_data rfl]
    simp only [hk]
    split
    · change _ + 1 + 4607 * s.cfg.dataTimeout < _
      omega
    · omega

theorem data_poll_progresses (ho : s.op = .xferData) :
    EndsOrProgresses s (s.poll s.cfg.dataTimeout (State.dataEdge s.clCur)) := by
  obtain ⟨-, hy, -, -⟩ := h.data ho
  have hbit := h.bit_le
  obtain ⟨-, e⟩ | ⟨hpos, -, e⟩ | ⟨hpos, -, -, hj, e⟩ | ⟨hpos, -, -, hj, hlast, e⟩ | ⟨-, -, -, -, -, e⟩ :=
    data_poll_cases s s.clCur
  · rw [e]
    exact .inl rfl
  · rw [e]
    refine progresses_data ho ho rfl ?_
    rw [State.sampled_clTmo, State.sampled_clByte, State.sampled_clBit]
    split <;> omega
  · have hcount : (BitVec.ofNat 4 (s.clBit.toNat + 1)).toNat = s.clBit.toNat + 1 := by
      rw [BitVec.toNat_ofNat, Nat.mod_eq_of_lt (by omega)]
    rw [e]
    refine progresses_data ho ho rfl ?_
    simp only [hcount]
    split
    · exact reload_lt hpos (by omega)
    · omega
  · have hcount : (BitVec.ofNat 10 (s.clByte.toNat + 1)).toNat = s.clByte.toNat + 1 := by
      rw [BitVec.toNat_ofNat, Nat.mod_eq_of_lt (by omega)]
    rw [e]
    refine progresses_data ho ho rfl ?_
    simp only [hcount]
    split
    · exact reload_lt hpos (by change _ = 4607 - (9 * (s.clByte.toNat + 1) + 0) + 1; omega)
    · omega
  · rw [e]
    exact .inl rfl

/-- Every step of a transfer ends it or uses up one of the steps left. -/
theorem transfer_step (hr : s.restartIn = false) (ht : s.op.inTransfer = true) :
    ∃ t, step s = .next t ∧ EndsOrProgresses s t := by
  obtain ho | ho | ho := inTransfer_iff.mp ht
  · refine ⟨_, step_notify hr ho, ?_⟩
    split
    · exact notifyRelease_progresses ho
    · next hn => exact notifyWait_progresses ho (by omega)
  · exact ⟨_, step_header hr ho, header_poll_progresses h ho⟩
  · exact ⟨_, step_data hr ho, data_poll_progresses h ho⟩

end

/-- Settles O30: induction on the steps left, of which every step uses up one. -/
theorem everyTransferEnds : Obligations.EveryTransferEnds := by
  intro s h hr ht
  induction hn : s.stepsLeft using Nat.strong_induction_on generalizing s with
  | _ n ih =>
    have hpos := stepsLeft_pos (s := s)
    obtain ⟨t, e, hidle | ⟨hin, hlt⟩⟩ := transfer_step h hr ht
    · exact ⟨1, t, by omega, run_snoc rfl e, hidle⟩
    · have m := move_of_step e
      have hr' : t.restartIn = false := by
        rw [(m.commandFrame hr (by rintro ho; simp [ho, Op.inTransfer] at ht)).restartIn, hr]
      obtain ⟨k, u, hk, eu, hu⟩ := ih t.stepsLeft (by omega) t (m.inv h) hr' hin rfl
      exact ⟨k + 1, u, by omega, (run_succ_next e).trans eu, hu⟩

end Sys2Proof.Machine
end

section
/-! A transfer on an alternating clock (R10, R140, R160): two polling iterations per edge, the 4645 levels of the frame,
and the end with RESULT 1. -/

namespace Sys2Proof.Machine

/-! Two polling iterations -/

/-- The levels of a clock that alternates high and low for `n` edges more. -/
def alternating (n : Nat) (later : List Level) : List Level := (List.replicate n [true, false]).flatten ++ later

theorem alternating_succ (n : Nat) (later : List Level) :
    alternating (n + 1) later = true :: false :: alternating n later := by
  simp [alternating, List.replicate_succ]

section
variable {s : State} {cs : List Level} (hr : s.restartIn = false) (hclk : s.clkIn = true :: false :: cs)
  (hbudget : 2 ≤ s.clTmo)
include hclk

theorem sampled_clkLevel_of_alternating : s.sampled.clkLevel = false := by
  refine clkLevel_cons (r := cs) ?_
  rw [State.sampled_clkIn, hclk]
  rfl

theorem sampled_clPrev_of_alternating : s.sampled.clPrev = true := by
  rw [State.sampled_clPrev, clkLevel_cons hclk]

include hr hbudget

/-- The high sample is no edge, the low one after it is polled with the budget that is left. -/
theorem run_two_header (ho : s.op = .xferHeader) :
    Host.Core.run Sys2Proof.core 2 s = .next (s.sampled.poll s.cfg.hdrTimeout State.headerEdge) := by
  have hfirst : step s = .next s.sampled :=
    step_of_no_edge hr (by rw [ho]; rfl) (by omega) (by simp [clkLevel_cons hclk])
  exact run_snoc (run_snoc rfl hfirst) (step_header (s := s.sampled) hr ho)

theorem run_two_data (ho : s.op = .xferData) :
    Host.Core.run Sys2Proof.core 2 s = .next (s.sampled.poll s.cfg.dataTimeout (State.dataEdge s.clCur)) := by
  have hfirst : step s = .next s.sampled :=
    step_of_no_edge hr (by rw [ho]; rfl) (by omega) (by simp [clkLevel_cons hclk])
  exact run_snoc (run_snoc rfl hfirst) (step_data (s := s.sampled) hr ho)

end

/-! The budgets -/

/-- What is left of a budget allows two polling iterations for each of `n` edges more: per edge where it is loaded again
at each, else for all of them together (R10, R148). -/
def BudgetFor (p : Params) (tmo n : Nat) : Prop := if p.tmoPerEdge then 2 ≤ tmo else 2 * n ≤ tmo

theorem BudgetFor.two_le {p : Params} {tmo n : Nat} (h : BudgetFor p tmo (n + 1)) : 2 ≤ tmo := by
  unfold BudgetFor at h
  split at h <;> omega

/-- The budget after an edge, `b` being what is loaded. -/
theorem BudgetFor.reload {p : Params} {tmo n m b : Nat} (h : BudgetFor p tmo (n + 1)) (hb : BudgetFor p b m) :
    BudgetFor p (if p.tmoPerEdge then b else tmo - 1 - 1) n := by
  unfold BudgetFor at *
  split
  · next hp => simpa [hp] using hb
  · next hp =>
    simp only [hp, if_false, Bool.false_eq_true] at h
    omega

/-! The transfer after `n` edges -/

/-- What holds of `t`, reached after `n` edges of the transfer that `s` has started, in either polling phase. -/
structure Sending (s : State) (later : List Level) (n : Nat) (t : State) : Prop where
  frame : CommandFrame s t
  running : t.restartIn = false
  notifyN : t.notifyN = true
  clkIn : t.clkIn = alternating (4645 - n) later
  tx : t.tx = framePart s.img s.sel n

/-- In the header phase. -/
structure SendingHeader (s : State) (later : List Level) (n : Nat) (t : State) : Prop extends Sending s later n t where
  op : t.op = .xferHeader
  clEdge : t.clEdge.toNat = n
  budget : BudgetFor s.cfg t.clTmo (37 - n)

/-- In the data phase, with `j` edges of the cell of byte `i` seen. -/
structure SendingData (s : State) (later : List Level) (i j : Nat) (t : State) : Prop
    extends Sending s later (37 + 9 * i + j) t where
  op : t.op = .xferData
  clEdge : t.clEdge.toNat = 37
  clByte : t.clByte.toNat = i
  clBit : t.clBit.toNat = j
  clCur : t.clCur = s.fetchByte i
  budget : BudgetFor s.cfg t.clTmo (4608 - (9 * i + j))

section
variable {s t : State} {later : List Level}

/-- The next two levels of the clock, while edges are left. -/
theorem Sending.clkIn_cons {n : Nat} (h : Sending s later n t) (hn : n < 4645) :
    t.clkIn = true :: false :: alternating (4645 - (n + 1)) later := by
  have e : 4645 - n = 4645 - (n + 1) + 1 := by omega
  rw [h.clkIn, e, alternating_succ]

/-- TX after an edge that drives `v`, seen at the second of two samples. -/
theorem Sending.tx_append {n : Nat} (h : Sending s later n t) {u : State} {v : Level}
    (hu : u.trace = .tx v :: .clkSample false :: .wdtKick :: t.sampled.trace) :
    u.tx = framePart s.img s.sel n ++ [v] := by
  rw [tx_of_trace_tx hu, ← h.tx]
  rfl

/-! The header phase, edge by edge -/

section
variable {n : Nat} (hb : BudgetFor s.cfg s.cfg.hdrTimeout 37) (hd : BudgetFor s.cfg s.cfg.dataTimeout 4608)

include hb in
theorem SendingHeader.edge (h : SendingHeader s later n t) (hn : n < 36) :
    ∃ u, Host.Core.run Sys2Proof.core 2 t = .next u ∧ SendingHeader s later (n + 1) u := by
  have hclk := h.clkIn_cons (by omega)
  have e37 : 37 - n = 37 - (n + 1) + 1 := by omega
  have hbudget := e37 ▸ h.budget
  have htwo := hbudget.two_le
  have hpos : 0 < t.sampled.clTmo := Nat.sub_pos_of_lt htwo
  have hne : t.sampled.clEdge.toNat ≠ 36 := by
    rw [State.sampled_clEdge, h.clEdge]
    omega
  have hedge := header_poll_of_edge hpos (sampled_clPrev_of_alternating hclk) (sampled_clkLevel_of_alternating hclk) hne
  refine ⟨_, (run_two_header h.running hclk htwo h.op).trans (congrArg _ hedge), ?_⟩
  exact
    { frame := { h.frame with }
      running := h.running
      notifyN := h.notifyN
      clkIn := by
        simp only [State.sampled_clkIn, hclk, List.tail_cons]
      tx := by
        rw [h.tx_append rfl, framePart_header_succ _ _ (by omega), State.sampled_clEdge, h.clEdge]
      op := h.op
      clEdge := by
        have hval := h.clEdge
        simp only [State.sampled_clEdge]
        bv_omega
      budget := by
        have hr := hbudget.reload hb
        rw [← h.frame.cfg] at hr ⊢
        exact hr }

include hd in
/-- The 37th edge enters the data phase with byte 0 (R149). -/
theorem SendingHeader.last_edge (h : SendingHeader s later 36 t) :
    ∃ u, Host.Core.run Sys2Proof.core 2 t = .next u ∧ SendingData s later 0 0 u := by
  have hclk := h.clkIn_cons (by omega)
  have htwo := h.budget.two_le
  have hpos : 0 < t.sampled.clTmo := Nat.sub_pos_of_lt htwo
  have hedge := header_poll_of_last_edge hpos (sampled_clPrev_of_alternating hclk)
    (sampled_clkLevel_of_alternating hclk) h.clEdge
  refine ⟨_, (run_two_header h.running hclk htwo h.op).trans (congrArg _ hedge), ?_⟩
  exact
    { frame := { h.frame with }
      running := h.running
      notifyN := h.notifyN
      clkIn := by
        simp only [State.sampled_clkIn, hclk, List.tail_cons]
      tx := by
        rw [h.tx_append rfl]
        exact (framePart_header_succ _ _ (by omega)).symm
      op := rfl
      clEdge := rfl
      clByte := rfl
      clBit := rfl
      clCur := by
        change t.img.read (fetchAddr t.sel 0) = s.img.read (fetchAddr s.sel 0)
        rw [h.frame.img, h.frame.sel]
      budget := by
        change BudgetFor s.cfg t.cfg.dataTimeout 4608
        rw [h.frame.cfg]
        exact hd }

end

/-! The data phase, edge by edge -/

section
variable {i j : Nat} (hd : BudgetFor s.cfg s.cfg.dataTimeout 4608)

include hd in
/-- A bit edge (R150). -/
theorem SendingData.bit_edge (h : SendingData s later i j t) (hi : i ≤ 511) (hj : j < 8) :
    ∃ u, Host.Core.run Sys2Proof.core 2 t = .next u ∧ SendingData s later i (j + 1) u := by
  have hclk := h.clkIn_cons (by omega)
  have e4608 : 4608 - (9 * i + j) = 4608 - (9 * i + (j + 1)) + 1 := by omega
  have hbudget := e4608 ▸ h.budget
  have htwo := hbudget.two_le
  have hpos : 0 < t.sampled.clTmo := Nat.sub_pos_of_lt htwo
  have hlt : t.sampled.clBit.toNat < 8 := h.clBit.trans_lt hj
  have hedge := data_poll_of_bit hpos (sampled_clPrev_of_alternating hclk) (sampled_clkLevel_of_alternating hclk)
    t.clCur hlt
  refine ⟨_, (run_two_data h.running hclk htwo h.op).trans (congrArg _ hedge), ?_⟩
  exact
    { frame := { h.frame with }
      running := h.running
      notifyN := h.notifyN
      clkIn := by
        simp only [State.sampled_clkIn, hclk, List.tail_cons, Nat.add_assoc]
      tx := by
        rw [h.tx_append rfl, framePart_bit_succ _ _ _ hj, State.sampled_clBit, h.clBit, h.clCur]
        rfl
      op := h.op
      clEdge := h.clEdge
      clByte := h.clByte
      clBit := by
        have hval := h.clBit
        simp only [State.sampled_clBit]
        bv_omega
      clCur := h.clCur
      budget := by
        have hr := hbudget.reload hd
        rw [← h.frame.cfg] at hr ⊢
        exact hr }

include hd in
/-- A gap edge before the last, which fetches the next byte (R151). -/
theorem SendingData.gap_edge (h : SendingData s later i 8 t) (hi : i < 511) :
    ∃ u, Host.Core.run Sys2Proof.core 2 t = .next u ∧ SendingData s later (i + 1) 0 u := by
  have hclk := h.clkIn_cons (by omega)
  have e4608 : 4608 - (9 * i + 8) = 4608 - (9 * (i + 1) + 0) + 1 := by omega
  have hbudget := e4608 ▸ h.budget
  have htwo := hbudget.two_le
  have hpos : 0 < t.sampled.clTmo := Nat.sub_pos_of_lt htwo
  have hlt : t.sampled.clByte.toNat < 511 := h.clByte.trans_lt hi
  have hedge := data_poll_of_gap hpos (sampled_clPrev_of_alternating hclk) (sampled_clkLevel_of_alternating hclk)
    t.clCur h.clBit hlt
  have e45 : 37 + 9 * i + 8 + 1 = 37 + 9 * (i + 1) + 0 := by omega
  refine ⟨_, (run_two_data h.running hclk htwo h.op).trans (congrArg _ hedge), ?_⟩
  exact
    { frame := { h.frame with }
      running := h.running
      notifyN := h.notifyN
      clkIn := by
        simp only [State.sampled_clkIn, hclk, List.tail_cons, e45]
      tx := by
        rw [h.tx_append rfl]
        exact (framePart_gap_succ _ _ i).symm
      op := h.op
      clEdge := h.clEdge
      clByte := by
        have hval := h.clByte
        simp only [State.sampled_clByte]
        bv_omega
      clBit := rfl
      clCur := by
        change t.img.read (fetchAddr t.sel (t.clByte.toNat + 1)) = s.img.read (fetchAddr s.sel (i + 1))
        rw [h.frame.img, h.frame.sel, h.clByte]
      budget := by
        have hr := hbudget.reload hd
        rw [← h.frame.cfg] at hr ⊢
        exact hr }

/-! The end -/

/-- What holds of `t` when the transfer that `s` has started has ended with RESULT 1 (R156). -/
structure Sent (s : State) (later : List Level) (t : State) : Prop where
  frame : CommandFrame s t
  op : t.op = .idle
  result : t.result = true
  status : t.status = .ok
  tx : t.tx = framePart s.img s.sel 4645
  clEdge : t.clEdge.toNat = 37
  clByte : t.clByte.toNat = 512
  clBit : t.clBit.toNat = 0
  sda : t.sda = true
  notifyN : t.notifyN = true
  irqLock : t.irqLock = false
  clkIn : t.clkIn = later

theorem SendingData.last_edge (h : SendingData s later 511 8 t) :
    ∃ u, Host.Core.run Sys2Proof.core 2 t = .next u ∧ Sent s later u := by
  have hclk := h.clkIn_cons (by omega)
  have htwo := h.budget.two_le
  have hpos : 0 < t.sampled.clTmo := Nat.sub_pos_of_lt htwo
  have hedge := data_poll_of_last_gap hpos (sampled_clPrev_of_alternating hclk) (sampled_clkLevel_of_alternating hclk)
    t.clCur h.clBit h.clByte
  refine ⟨_, (run_two_data h.running hclk htwo h.op).trans (congrArg _ hedge), ?_⟩
  exact
    { frame := { h.frame with }
      op := rfl
      result := rfl
      status := rfl
      tx := by
        rw [h.tx_append rfl]
        exact (framePart_gap_succ _ _ 511).symm
      clEdge := h.clEdge
      clByte := rfl
      clBit := rfl
      sda := rfl
      notifyN := h.notifyN
      irqLock := rfl
      clkIn := by
        simp only [State.sampled_clkIn, hclk, List.tail_cons]
        rfl }

end

/-! The whole transfer -/

section
variable (hb : BudgetFor s.cfg s.cfg.hdrTimeout 37) (hd : BudgetFor s.cfg s.cfg.dataTimeout 4608)

include hb in
theorem run_header_edges (h : SendingHeader s later 0 t) {n : Nat} (hn : n ≤ 36) :
    ∃ u, Host.Core.run Sys2Proof.core (2 * n) t = .next u ∧ SendingHeader s later n u := by
  induction n with
  | zero => exact ⟨t, rfl, h⟩
  | succ n ih =>
    obtain ⟨u, e, hu⟩ := ih (by omega)
    obtain ⟨v, ev, hv⟩ := hu.edge hb (by omega)
    exact ⟨v, (run_add e).trans ev, hv⟩

include hd

theorem run_bit_edges {i : Nat} (h : SendingData s later i 0 t) (hi : i ≤ 511) {j : Nat} (hj : j ≤ 8) :
    ∃ u, Host.Core.run Sys2Proof.core (2 * j) t = .next u ∧ SendingData s later i j u := by
  induction j with
  | zero => exact ⟨t, rfl, h⟩
  | succ j ih =>
    obtain ⟨u, e, hu⟩ := ih (by omega)
    obtain ⟨v, ev, hv⟩ := hu.bit_edge hd hi (by omega)
    exact ⟨v, (run_add e).trans ev, hv⟩

theorem run_cells (h : SendingData s later 0 0 t) {i : Nat} (hi : i ≤ 511) :
    ∃ u, Host.Core.run Sys2Proof.core (18 * i) t = .next u ∧ SendingData s later i 0 u := by
  induction i with
  | zero => exact ⟨t, rfl, h⟩
  | succ i ih =>
    obtain ⟨u, e, hu⟩ := ih (by omega)
    obtain ⟨v, ev, hv⟩ := run_bit_edges hd hu (by omega) (le_refl 8)
    obtain ⟨w, ew, hw⟩ := hv.gap_edge hd (by omega)
    exact ⟨w, (run_add e).trans ((run_add ev).trans ew), hw⟩

include hb

/-- 4645 edges, two polling iterations each, send the frame (R160). -/
theorem run_frame (h : SendingHeader s later 0 t) :
    ∃ u, Host.Core.run Sys2Proof.core 9290 t = .next u ∧ Sent s later u := by
  obtain ⟨u, eu, hu⟩ := run_header_edges hb h (le_refl 36)
  obtain ⟨v, ev, hv⟩ := hu.last_edge hd
  obtain ⟨w, ew, hw⟩ := run_cells hd hv (le_refl 511)
  obtain ⟨x, ex, hx⟩ := run_bit_edges hd hw (le_refl 511) (le_refl 8)
  obtain ⟨y, ey, hy⟩ := hx.last_edge
  exact ⟨y, (run_add (l := 9218) eu).trans ((run_add (l := 9216) ev).trans ((run_add (l := 18) ew).trans
    ((run_add ex).trans ey))), hy⟩

end

end

/-- The header phase begins with the clock and the image as they were at the start of the transfer. -/
theorem sendingHeader_of_released {s : State} {later : List Level} {tr : List Event} (hr : s.restartIn = false)
    (hclk : s.clkIn = alternating 4645 later) (hb : BudgetFor s.cfg s.cfg.hdrTimeout 37) (htx : txOf tr = []) :
    SendingHeader s later 0 (State.notifyRelease { s with clNcnt := 0, trace := tr }) where
  frame := { CommandFrame.refl s with }
  running := hr
  notifyN := rfl
  clkIn := hclk
  tx := congrArg List.reverse htx
  op := rfl
  clEdge := rfl
  budget := hb

/-- Settles O31: the acceptance, the notify pulse, the 4645 edges. -/
theorem alternatingClockSendsProgram : Obligations.AlternatingClockSendsProgram := by
  intro s r rest n later hr ho hv hc hd hn hbudget hclk
  have hheader : BudgetFor s.cfg s.cfg.hdrTimeout 37 := by
    unfold BudgetFor
    split at hbudget
    · next hp => rw [if_pos hp]; exact hbudget.1
    · next hp => rw [if_neg hp]; exact hbudget.1
  have hdata : BudgetFor s.cfg s.cfg.dataTimeout 4608 := by
    unfold BudgetFor
    split at hbudget
    · next hp => rw [if_pos hp]; exact hbudget.2
    · next hp => rw [if_neg hp]; exact hbudget.2
  have haccept : step s = .next (State.transferStart { s with cmdIn := rest, sel := indexSel n }) :=
    (step_request hr ho hc hd).trans (exec_select_of_valid (s := { s with cmdIn := rest }) ho hv hn)
  generalize ht : State.transferStart { s with cmdIn := rest, sel := indexSel n } = t at haccept
  obtain ⟨tr, epulse, htx, -⟩ := run_notify (s := t) (by rw [← ht]; exact hr) (by rw [← ht]; rfl)
  have hsending : SendingHeader t later 0 (State.notifyRelease { t with clNcnt := 0, trace := tr }) := by
    subst ht
    exact sendingHeader_of_released hr hclk hheader htx
  obtain ⟨u, eframe, hu⟩ := run_frame (by rw [← ht]; exact hheader) (by rw [← ht]; exact hdata) hsending
  have hncnt : t.clNcnt = s.cfg.notifyIter := by rw [← ht]; rfl
  rw [hncnt] at epulse
  have hsel : t.sel = BitVec.ofNat 3 n.toNat := by
    rw [← ht]
    exact indexSel_eq_ofNat n
  have himg : t.img = s.img := by rw [← ht]; rfl
  have hcmd : t.cmdIn = rest := by rw [← ht]; rfl
  refine ⟨u, (run_add (run_add (run_snoc rfl haccept) |>.trans epulse)).trans eframe, hu.op, hu.result, hu.status, ?_,
    hu.frame.img.trans himg, ?_, hu.clEdge, hu.clByte, hu.clBit, hu.sda, hu.notifyN, hu.irqLock, hu.clkIn,
    hu.frame.cmdIn.trans hcmd⟩
  · rw [hu.frame.sel, hsel, BitVec.toNat_ofNat, Nat.mod_eq_of_lt (by omega)]
  · rw [hu.tx, himg, hsel]

end Sys2Proof.Machine
end

section
/-! The HexLoader (43_host_hexloader.md): the fields of a rendered record, the checks of a line, the lines of a rendered
file, the staging buffer after its records, the round trip. -/

namespace Sys2Proof.Machine

/-! Digits and bytes -/

theorem hexDigit_hexChar : ∀ n < 16, hexDigit (hexChar n) = some n := by decide

theorem hexByte_renderByte (b : Byte) : hexByte (hexChar (b.toNat / 16)) (hexChar (b.toNat % 16)) = some b := by
  have hhi : b.toNat / 16 < 16 := Nat.div_lt_of_lt_mul b.isLt
  rw [hexByte, hexDigit_hexChar _ hhi, hexDigit_hexChar _ (Nat.mod_lt _ (by decide))]
  simp only [Nat.div_add_mod, BitVec.ofNat_toNat, BitVec.setWidth_eq]

/-- Rendered bytes are read back, whatever follows them. -/
theorem hexBytes_renderBytes (bs tail : List Byte) : hexBytes bs.length (renderBytes bs ++ tail) = some (bs, tail) := by
  induction bs with
  | nil => rfl
  | cons b bs ih =>
    have e : renderBytes (b :: bs) ++ tail =
        hexChar (b.toNat / 16) :: hexChar (b.toNat % 16) :: (renderBytes bs ++ tail) := rfl
    rw [e, List.length_cons, hexBytes, hexByte_renderByte, ih]

/-! One record -/

theorem HexRecord.wf_iff {r : HexRecord} :
    r.wf = true ↔ r.count = r.payload.length ∧ r.count < 256 ∧ r.addr < 65536 ∧ r.kind < 256 := by
  simp [HexRecord.wf, and_assoc]

/-- Settles O57: the four bytes in front give the length of what follows them. -/
theorem recordLineDecodes : Obligations.RecordLineDecodes := by
  intro r tail hw
  obtain ⟨hlen, hcount, haddr, hkind⟩ := HexRecord.wf_iff.mp hw
  have hfront : hexBytes 4 (renderBytes r.bytes ++ tail) =
      some ([BitVec.ofNat 8 r.count, BitVec.ofNat 8 (r.addr / 256), BitVec.ofNat 8 r.addr, BitVec.ofNat 8 r.kind],
        renderBytes (r.payload ++ [r.checksum]) ++ tail) :=
    hexBytes_renderBytes [_, _, _, _] _
  have hll : (BitVec.ofNat 8 r.count).toNat = r.count := by
    rw [BitVec.toNat_ofNat, Nat.mod_eq_of_lt hcount]
  have hback : hexBytes (r.count + 1) (renderBytes (r.payload ++ [r.checksum]) ++ tail) =
      some (r.payload ++ [r.checksum], tail) := by
    have e := hexBytes_renderBytes (r.payload ++ [r.checksum]) tail
    rwa [List.length_append, ← hlen] at e
  have haddr' : 256 * (BitVec.ofNat 8 (r.addr / 256)).toNat + (BitVec.ofNat 8 r.addr).toNat = r.addr := by
    simp only [BitVec.toNat_ofNat]
    omega
  have hkind' : (BitVec.ofNat 8 r.kind).toNat = r.kind := by
    rw [BitVec.toNat_ofNat, Nat.mod_eq_of_lt hkind]
  have htake : (r.payload ++ [r.checksum]).take r.count = r.payload := by rw [hlen, List.take_left]
  have hlast : (r.payload ++ [r.checksum]).getD r.count 0 = r.checksum := by simp [hlen]
  simp only [decodeRecord, hfront, hll, hback, haddr', hkind', htake, hlast]

/-! One line -/

section
variable {h : HexParams} {load k : Nat} {b : Staging} {r : HexRecord}

theorem processLine_no_marker {c : Byte} {cs : List Byte} (hc : c ≠ 58) :
    processLine h load k b (c :: cs) = .failed .malformedFile := if_pos hc

/-- What the line of a record comes to (R225 to R231). -/
theorem processLine_line (hw : r.wf = true) : processLine h load k b r.line =
    if r.kind = 0 then if r.sum ≠ 0 then .failed .checksumError else .placed (place b r.addr r.payload)
    else if r.kind = 1 then if h.checkEofSum && r.sum ≠ 0 then .failed .checksumError else .eof
    else .failed .malformedFile := by
  have hd : decodeRecord (renderBytes r.bytes) = some r := by
    simpa using recordLineDecodes r [] hw
  exact processLine_record (readRecord_of_decode k hd)

theorem processLine_data (hw : r.wf = true) (hk : r.kind = 0) (hs : r.sum = 0) :
    processLine h load k b r.line = .placed (place b r.addr r.payload) := by
  rw [processLine_line hw, if_pos hk, if_neg (not_not.mpr hs)]

theorem processLine_eofRecord : processLine h load k b eofRecord.line = .eof := by
  have hk : eofRecord.kind = 1 := rfl
  have hs : eofRecord.sum = 0 := by decide
  rw [processLine_line (by decide), if_neg (by decide), if_pos hk, if_neg (by simp [hs])]

end

/-- Settles O58: the marker, then the type, then the sum of the record that the line carries. -/
theorem lineChecksInOrder : Obligations.LineChecksInOrder := by
  refine ⟨fun h load k b c cs => processLine_no_marker, fun h load k b cs => processLine_other_type,
    fun h load k b r hw => ⟨fun h0 h1 => ?_, fun h0 hs => ?_, fun h0 hs => processLine_data hw h0 hs,
      fun h1 hv hs => ?_, fun h1 hv => ?_⟩⟩
  · rw [processLine_line hw, if_neg h0, if_neg h1]
  · rw [processLine_line hw, if_pos h0, if_pos hs]
  · rw [processLine_line hw, if_neg (by omega), if_pos h1, if_pos (by rw [hv, Bool.true_and, decide_eq_true hs])]
  · rw [processLine_line hw, if_neg (by omega), if_pos h1, if_neg]
    obtain hv | hs := hv
    · simp [hv]
    · simp [hs]

/-! What a load rejects -/

section
variable {h : HexParams} {load : Nat}

/-- A line that is passed over or placed: the data goes on after it. -/
def GoodDataLine (l : List Byte) : Prop :=
  l = [] ∨ ∃ cs r, l = 58 :: cs ∧ decodeRecord cs = some r ∧ r.kind = 0 ∧ r.sum = 0

/-- Without an end-of-file record the physical end is malformed-file (R230, R235). -/
theorem processLines_of_goodDataLines {ls : List (List Byte)} (hl : ∀ l ∈ ls, GoodDataLine l) {b : Staging} :
    processLines h load b false ls = .error .malformedFile := by
  induction ls generalizing b with
  | nil => rfl
  | cons l ls ih =>
    obtain ⟨hl, hls⟩ := List.forall_mem_cons.mp hl
    rw [processLines]
    obtain rfl | ⟨cs, r, rfl, hd, hk, hs⟩ := hl
    · rw [if_pos rfl]
      exact ih hls
    · rw [if_neg (List.cons_ne_nil _ _), processLine_record (readRecord_of_decode _ hd), if_pos hk,
        if_neg (not_not.mpr hs)]
      exact ih hls

theorem loadFile_of_size {first : Bool} {bytes : List Byte}
    (hsize : bytes.length ≠ h.sizeCrlf ∧ bytes.length ≠ h.sizeLf) :
    loadFile h load first (some bytes) = { result := .malformedFile, staged := none, persistPath := false } :=
  if_pos hsize

theorem loadFile_of_error {first : Bool} {bytes : List Byte}
    (hsize : bytes.length = h.sizeCrlf ∨ bytes.length = h.sizeLf) {r : LoadResult}
    (e : processLines h load [] false (splitLines (detectEol bytes) bytes) = .error r) :
    loadFile h load first (some bytes) = { result := r, staged := none, persistPath := false } := by
  rw [loadFile, if_neg (by tauto), e]

theorem loadFile_of_ok {first : Bool} {bytes : List Byte}
    (hsize : bytes.length = h.sizeCrlf ∨ bytes.length = h.sizeLf) {b : Staging}
    (e : processLines h load [] false (splitLines (detectEol bytes) bytes) = .ok b) :
    loadFile h load first (some bytes) =
      { result := .success, staged := some (stagedImage load b), persistPath := !first } := by
  rw [loadFile, if_neg (by tauto), e]

end

/-- Settles O55: the tests of `loadFile` in their order; a success has seen an end-of-file line (`processLines_ok`). -/
theorem loaderRejectsFiles : Obligations.LoaderRejectsFiles := by
  intro h load first bytes
  refine ⟨rfl, fun hc hl => loadFile_of_size ⟨hc, hl⟩, fun hs => ?_, fun hl => ?_⟩
  · obtain ⟨hfail, -⟩ | ⟨bytes', b, hb, hp, -⟩ := loadFile_cases (h := h) (load := load) first (some bytes)
    · exact absurd hs hfail
    · cases hb
      obtain ⟨l, hmem, k, b', heof⟩ := processLines_ok hp
      obtain ⟨cs, rfl, htype⟩ := processLine_eof heof
      exact ⟨cs, hmem, htype, k, b', heof⟩
  · by_cases hsize : bytes.length ≠ h.sizeCrlf ∧ bytes.length ≠ h.sizeLf
    · exact loadFile_of_size hsize
    · exact loadFile_of_error (by tauto) (processLines_of_goodDataLines hl)

/-! loadFirmware -/

theorem loadFile_persistPath_of_failure {h : HexParams} {load : Nat} {first : Bool} {file : Option (List Byte)}
    (hr : (loadFile h load first file).result ≠ .success) : (loadFile h load first file).persistPath = false := by
  obtain ⟨-, -, hp⟩ | ⟨_, _, -, -, e⟩ := loadFile_cases (h := h) (load := load) first file
  · exact hp
  · exact absurd (by rw [e]) hr

theorem loadFile_persistPath_of_success {h : HexParams} {load : Nat} {first : Bool} {file : Option (List Byte)}
    (hr : (loadFile h load first file).result = .success) : (loadFile h load first file).persistPath = !first := by
  obtain ⟨hfail, -⟩ | ⟨_, _, -, -, e⟩ := loadFile_cases (h := h) (load := load) first file
  · exact absurd hr hfail
  · rw [e]

/-- Settles O56: what the load issues and persists, by its result. -/
theorem onlySuccessIssuesReplaceImage : Obligations.OnlySuccessIssuesReplaceImage := by
  rintro s path rep rfl
  refine ⟨fun hr => ?_, fun hr => ?_⟩
  · rw [State.loadFirmware, HexHost.load_report, loadFile_requests_of_failure hr, HexHost.load,
      loadFile_persistPath_of_failure hr, if_neg Bool.false_ne_true, List.append_nil]
  · obtain ⟨m, hm, hreq, hw⟩ := loadFile_requests_of_success hr
    refine ⟨m, hm, decode_command_replaceImage hw, ?_⟩
    rw [State.loadFirmware, HexHost.load_report, hreq, HexHost.load, loadFile_persistPath_of_success hr, Bool.not_false,
      if_pos rfl, hr]

/-! The lines of a rendered file -/

/-- No character ends a line. -/
def Unbroken (l : List Byte) : Prop := ∀ c ∈ l, c ≠ 10 ∧ c ≠ 13

theorem hexChar_unbroken : ∀ n < 16, hexChar n ≠ 10 ∧ hexChar n ≠ 13 := by decide

theorem renderBytes_unbroken (bs : List Byte) : Unbroken (renderBytes bs) := by
  induction bs with
  | nil => simp [Unbroken, renderBytes]
  | cons b bs ih =>
    have hhi : b.toNat / 16 < 16 := Nat.div_lt_of_lt_mul b.isLt
    have hlo : b.toNat % 16 < 16 := Nat.mod_lt _ (by decide)
    exact List.forall_mem_cons.mpr ⟨hexChar_unbroken _ hhi, List.forall_mem_cons.mpr ⟨hexChar_unbroken _ hlo, ih⟩⟩

theorem line_unbroken (r : HexRecord) : Unbroken r.line :=
  List.forall_mem_cons.mpr ⟨by decide, renderBytes_unbroken r.bytes⟩

theorem line_ne_nil (r : HexRecord) : r.line ≠ [] := List.cons_ne_nil _ _

section
variable (e : Eol)

theorem splitLines_terminator (rest : List Byte) : splitLines e (e.chars ++ rest) = [] :: splitLines e rest := by
  cases e with
  | crlf => simp [Eol.chars, splitLines]
  | lf => cases rest <;> simp [Eol.chars, splitLines]
  | cr => cases rest <;> simp [Eol.chars, splitLines]

theorem splitLines_cons {c : Byte} (hc : c ≠ 10 ∧ c ≠ 13) {cs : List Byte} (hcs : cs ≠ []) :
    splitLines e (c :: cs) = consLine c (splitLines e cs) := by
  match cs, hcs with
  | d :: cs, _ => rw [splitLines, if_neg (by tauto), if_neg (by tauto)]

theorem splitLines_line {l : List Byte} (hl : Unbroken l) (rest : List Byte) :
    splitLines e (l ++ (e.chars ++ rest)) = l :: splitLines e rest := by
  have hne : e.chars ++ rest ≠ [] := by cases e <;> simp [Eol.chars]
  induction l with
  | nil => exact splitLines_terminator e rest
  | cons c l ih =>
    obtain ⟨hc, hl⟩ := List.forall_mem_cons.mp hl
    rw [List.cons_append, splitLines_cons e hc (List.append_ne_nil_of_right_ne_nil l hne), ih hl, consLine]

/-- A rendered file has a line for each record, and an empty one after the last terminator (R224). -/
theorem splitLines_renderFile (rs : List HexRecord) :
    splitLines e (renderFile e rs) = rs.map HexRecord.line ++ [[]] := by
  induction rs with
  | nil => rfl
  | cons r rs ih =>
    rw [renderFile, List.append_assoc, splitLines_line e (line_unbroken r), ih, List.map_cons, List.cons_append]

theorem detectEol_cons {c : Byte} (hc : c ≠ 10 ∧ c ≠ 13) (cs : List Byte) : detectEol (c :: cs) = detectEol cs :=
  (if_neg hc.2).trans (if_neg hc.1)

theorem detectEol_unbroken {l : List Byte} (hl : Unbroken l) (rest : List Byte) :
    detectEol (l ++ rest) = detectEol rest := by
  induction l with
  | nil => rfl
  | cons c l ih =>
    obtain ⟨hc, hl⟩ := List.forall_mem_cons.mp hl
    rw [List.cons_append, detectEol_cons hc, ih hl]

/-- The style is found from the first terminator: after a CR alone the next line begins with its marker (R224). -/
theorem detectEol_renderFile (r : HexRecord) (rs : List HexRecord) : detectEol (renderFile e (r :: rs)) = e := by
  rw [renderFile, List.append_assoc, detectEol_unbroken (line_unbroken r)]
  cases e with
  | crlf => simp [Eol.chars, detectEol]
  | lf => simp [Eol.chars, detectEol]
  | cr => cases rs <;> simp [Eol.chars, detectEol, renderFile, HexRecord.line]

end

/-! The staging buffer -/

/-- What is staged lies inside the buffer and is `buf` there. -/
def StagedFrom (buf : Nat → Byte) (b : Staging) : Prop := ∀ c ∈ b, c.1 < imgBytes ∧ c.2 = buf c.1

/-- A byte of the buffer that has been staged is read back (R226). -/
theorem stagedByte_of_stagedFrom {load : Nat} {buf : Nat → Byte} {b : Staging} (hb : StagedFrom buf b) {a : Nat}
    (ha : ∃ v, (a, v) ∈ b) : stagedByte load b a = buf a := by
  induction b with
  | nil => simp at ha
  | cons c b ih =>
    obtain ⟨k, w⟩ := c
    obtain ⟨⟨hk, hw⟩, hb⟩ := List.forall_mem_cons.mp hb
    rw [stagedByte]
    by_cases hka : k = a
    · rw [if_pos hka, ← hka]
      exact hw
    · rw [if_neg hka, if_pos hk]
      obtain ⟨v, hv⟩ := ha
      obtain hv | hv := List.mem_cons.mp hv
      · exact absurd (congrArg Prod.fst hv).symm hka
      · exact ih hb ⟨v, hv⟩

section
variable {buf : Nat → Byte}

theorem place_stagedFrom {b : Staging} (hb : StagedFrom buf b) {addr : Nat} {ds : List Byte}
    (hin : addr + ds.length ≤ imgBytes) (hds : ∀ i, i < ds.length → ds[i]? = some (buf (addr + i))) :
    StagedFrom buf (place b addr ds) := by
  induction ds generalizing b addr with
  | nil => exact hb
  | cons d ds ih =>
    rw [List.length_cons] at hin
    have hd : d = buf addr := by simpa using hds 0 (by simp)
    refine ih (List.forall_mem_cons.mpr ⟨⟨by simp only; omega, hd⟩, hb⟩) (by omega) fun i hi => ?_
    have hi' := hds (i + 1) (by simpa using hi)
    rwa [List.getElem?_cons_succ, ← Nat.add_assoc, Nat.add_right_comm] at hi'

/-- Placing keeps what is there and adds every address of the payload. -/
theorem place_covers (b : Staging) {addr : Nat} {ds : List Byte} {a : Nat}
    (ha : (∃ v, (a, v) ∈ b) ∨ addr ≤ a ∧ a < addr + ds.length) : ∃ v, (a, v) ∈ place b addr ds := by
  induction ds generalizing b addr with
  | nil =>
    obtain ha | ⟨hlo, hhi⟩ := ha
    · exact ha
    · simp at hhi
      omega
  | cons d ds ih =>
    refine ih ((addr, d) :: b) ?_
    obtain ⟨v, hv⟩ | ⟨hlo, hhi⟩ := ha
    · exact .inl ⟨v, List.mem_cons_of_mem _ hv⟩
    · rw [List.length_cons] at hhi
      by_cases ha : a = addr
      · exact .inl ⟨d, by rw [ha]; exact List.mem_cons_self⟩
      · exact .inr (by omega)

/-- A record that carries bytes of `buf` inside the buffer. -/
def Carries (buf : Nat → Byte) (r : HexRecord) : Prop :=
  r.addr + r.payload.length ≤ imgBytes ∧ ∀ i, i < r.payload.length → r.payload[i]? = some (buf (r.addr + i))

theorem placeAll_stagedFrom {rs : List HexRecord} (hrs : ∀ r ∈ rs, Carries buf r) {b : Staging}
    (hb : StagedFrom buf b) : StagedFrom buf (placeAll b rs) := by
  induction rs generalizing b with
  | nil => exact hb
  | cons r rs ih =>
    obtain ⟨⟨hin, hds⟩, hrs⟩ := List.forall_mem_cons.mp hrs
    exact ih hrs (place_stagedFrom hb hin hds)

theorem placeAll_covers {rs : List HexRecord} {b : Staging} {a : Nat}
    (ha : (∃ v, (a, v) ∈ b) ∨ ∃ r ∈ rs, r.addr ≤ a ∧ a < r.addr + r.payload.length) :
    ∃ v, (a, v) ∈ placeAll b rs := by
  induction rs generalizing b with
  | nil => simpa [placeAll] using ha
  | cons r rs ih =>
    refine ih ?_
    obtain ha | ⟨r', hr', ha⟩ := ha
    · exact .inl (place_covers b (.inl ha))
    · obtain rfl | hr' := List.mem_cons.mp hr'
      · exact .inl (place_covers b (.inr ha))
      · exact .inr ⟨r', hr', ha⟩

end

/-! The round trip -/

section
variable {h : HexParams} {load : Nat}

/-- The lines of good data records are placed one after the other (R226). -/
theorem processLines_dataRecords {rs : List HexRecord} (hrs : ∀ r ∈ rs, r.wf = true ∧ r.kind = 0 ∧ r.sum = 0)
    (b : Staging) (ls : List (List Byte)) : processLines h load b false (rs.map HexRecord.line ++ ls) =
      processLines h load (placeAll b rs) false ls := by
  induction rs generalizing b with
  | nil => rfl
  | cons r rs ih =>
    obtain ⟨⟨hw, hk, hs⟩, hrs⟩ := List.forall_mem_cons.mp hrs
    rw [List.map_cons, List.cons_append, processLines, if_neg (line_ne_nil r), processLine_data hw hk hs]
    exact ih hrs _

/-- After the end-of-file record nothing but the empty line stands in the way of success (R227, R230). -/
theorem processLines_eofRecord (b : Staging) : processLines h load b false [eofRecord.line, []] = .ok b := by
  rw [processLines, if_neg (line_ne_nil _), processLine_eofRecord]
  cases ha : h.applyAfterEof
  · simp
  · simp [processLines]

/-- The lines of a file of good data records and the end-of-file record (R235). -/
theorem processLines_renderFile (e : Eol) {rs : List HexRecord}
    (hrs : ∀ r ∈ rs, r.wf = true ∧ r.kind = 0 ∧ r.sum = 0) :
    processLines h load [] false (splitLines (detectEol (renderFile e (rs ++ [eofRecord])))
      (renderFile e (rs ++ [eofRecord]))) = .ok (placeAll [] rs) := by
  have hstyle : detectEol (renderFile e (rs ++ [eofRecord])) = e := by
    cases rs with
    | nil => exact detectEol_renderFile e _ _
    | cons r rs => exact detectEol_renderFile e _ _
  rw [hstyle, splitLines_renderFile, List.map_append, List.append_assoc, processLines_dataRecords hrs]
  exact processLines_eofRecord _

end

/-- Settles O59: the lines are the records, their bytes are staged, and every address of the buffer is among them. -/
theorem loadRoundTrip : Obligations.LoadRoundTrip := by
  intro h load first e buf rs hrs hcover hsize
  have hlines := processLines_renderFile (h := h) (load := load) e (rs := rs)
    fun r hr => ⟨(hrs r hr).1, (hrs r hr).2.1, (hrs r hr).2.2.1⟩
  refine ⟨stagedImage load (placeAll [] rs), loadFile_of_ok hsize hlines, stagedImage_wf _, fun a ha => ?_⟩
  have hstaged : StagedFrom buf (placeAll [] rs) :=
    placeAll_stagedFrom (fun r hr => (hrs r hr).2.2.2) (by simp [StagedFrom])
  rw [stagedImage_read _ ha]
  exact stagedByte_of_stagedFrom hstaged (placeAll_covers (.inr (hcover a ha)))

end Sys2Proof.Machine
end

section
/-! The burn, run by run: the wait for the device (R183), one verify step by the mismatching bytes of its chunk (R187),
a whole burn on a faithful device (R194). -/

namespace Sys2Proof.Machine

/-! The wait for the device -/

theorem probeAnswer_cons {s : State} {p : Bool} {ps : List Bool} (h : s.probeIn = p :: ps) : s.probeAnswer = p := by
  simp [State.probeAnswer, h]

/-- A probe whose answer is listed draws no free one. -/
theorem takeProbe_cons {s : State} {p : Bool} {ps : List Bool} (h : s.probeIn = p :: ps) :
    s.takeProbe = { s with probeIn := ps, trace := .eeProbe p :: s.trace } := by
  simp [State.takeProbe, probeAnswer_cons h, h]

/-- Absent answers are used up and change STATUS and the trace alone. -/
theorem run_absent {k : Nat} {later : List Bool} : ∀ {s : State}, s.restartIn = false → s.op = .eeProbe →
    s.probeIn = List.replicate k false ++ later →
    ∃ st tr, Host.Core.run Sys2Proof.core k s = .next { s with probeIn := later, status := st, trace := tr } ∧
      (0 < k → st = .deviceNotPresent) := by
  induction k with
  | zero =>
    intro s _ _ hin
    obtain rfl : s.probeIn = later := hin
    exact ⟨s.status, s.trace, rfl, fun h => absurd h (Nat.lt_irrefl 0)⟩
  | succ k ih =>
    intro s hr ho hin
    have hcons : s.probeIn = false :: (List.replicate k false ++ later) := hin
    have e := step_probe hr ho
    rw [probe_of_absent (probeAnswer_cons hcons), takeProbe_cons hcons] at e
    obtain ⟨st, tr, e', hst⟩ := ih (s := { s with
      probeIn := List.replicate k false ++ later, status := .deviceNotPresent, trace := .eeProbe false :: s.trace })
      hr ho rfl
    cases k with
    | zero => exact ⟨.deviceNotPresent, _, run_succ_next e, fun _ => rfl⟩
    | succ k => exact ⟨st, tr, (run_succ_next e).trans e', fun _ => hst (Nat.succ_pos k)⟩

/-- Settles O34: `run_absent` for the wait, the probe step by its answer for the way out. -/
theorem absentDeviceWaitsForever : Obligations.AbsentDeviceWaitsForever := by
  refine ⟨fun k s later hr ho hin => ?_, fun s t hr ho e => ?_⟩
  · obtain ⟨st, tr, e, hst⟩ := run_absent hr ho hin
    exact ⟨_, e, ho, rfl, rfl, rfl, hst⟩
  · rw [step_probe hr ho] at e
    injection e with e
    subst e
    cases hp : s.probeAnswer with
    | true => simp [probe_of_present hp]
    | false => simp [probe_of_absent hp, ho]

/-! The bytes of a chunk that mismatch -/

/-- The byte expected at `x` and the one that the next page read, of the chunk at EE_ADDR, answers there (R76). -/
def chunkPair (s : State) (x : Nat) : Byte × Byte := (s.img.read x, s.ee.read x ^^^ s.readError (x - s.eeAddr.toNat))

/-- Where in its chunk the next verify step finds a mismatching byte (R187). -/
def badOffsets (s : State) : List Nat :=
  (List.range (chunkLen s.cfg s.eeAddr.toNat)).filter fun i =>
    decide (s.ee.read (s.eeAddr.toNat + i) ^^^ s.readError i ≠ s.img.read (s.eeAddr.toNat + i))

section
variable (s : State)

theorem chunkPair_offset (i : Nat) : chunkPair s (s.eeAddr.toNat + i) =
    (s.img.read (s.eeAddr.toNat + i), s.ee.read (s.eeAddr.toNat + i) ^^^ s.readError i) := by
  rw [chunkPair, Nat.add_sub_cancel_left]

theorem verify_pairs_eq_chunkPair :
    (s.imageChunk s.eeAddr.toNat).zip (s.readAnswer s.eeAddr.toNat (chunkLen s.cfg s.eeAddr.toNat)) =
      (List.range' s.eeAddr.toNat (chunkLen s.cfg s.eeAddr.toNat)).map (chunkPair s) := by
  rw [verify_pairs, List.range'_eq_map_range, List.map_map]
  exact List.map_congr_left fun i _ => (chunkPair_offset s i).symm

theorem differing_chunkPair : differing (chunkPair s) s.eeAddr.toNat (chunkLen s.cfg s.eeAddr.toNat) =
    (badOffsets s).map (s.eeAddr.toNat + ·) := by
  rw [differing, badOffsets, List.range'_eq_map_range, List.filter_map]
  congr 1
  exact List.filter_congr fun i _ => by rw [Function.comp, chunkPair_offset]

theorem badOffsets_lt {i : Nat} (hi : i ∈ badOffsets s) : i < chunkLen s.cfg s.eeAddr.toNat :=
  List.mem_range.mp (List.mem_of_mem_filter hi)

end

/-! The comparison of consecutive addresses, with its reports -/

section
variable {f : Nat → Byte × Byte} {n : Nat}

theorem compare_of_none : ∀ {s : State} {a : Nat}, differing f a n = [] →
    s.compare a ((List.range' a n).map f) = (s, false) := by
  induction n with
  | zero => exact fun _ => rfl
  | succ n ih =>
    intro s a hd
    by_cases he : (f a).2 = (f a).1
    · rw [differing_succ_of_eq n he] at hd
      rw [compare_range'_succ_of_eq s n he, ih hd]
    · rw [differing_succ_of_ne n he] at hd
      cases hd

/-- The one mismatch is recorded and reported, the first of the verification (R187). -/
theorem compare_of_one {x : Nat} : ∀ {s : State} {a : Nat}, differing f a n = [x] → s.eeMism = 0 →
    s.compare a ((List.range' a n).map f) =
      ({ s with eeMism := 1, eeMaddr := BitVec.ofNat 12 x, trace := .firstMismatch x (f x).1 (f x).2 :: s.trace },
        false) := by
  induction n with
  | zero => exact fun hd => by cases hd
  | succ n ih =>
    intro s a hd hm
    by_cases he : (f a).2 = (f a).1
    · rw [differing_succ_of_eq n he] at hd
      rw [compare_range'_succ_of_eq s n he, ih hd hm]
    · rw [differing_succ_of_ne n he] at hd
      obtain ⟨rfl, hrest⟩ := List.cons.inj hd
      rw [List.range'_succ, List.map_cons, compare_cons_first _ he hm, compare_of_none hrest]

end

/-! One verify step -/

section
variable {s : State} (ho : s.op = .eeVerify)
include ho

/-- A verify step whose comparison goes through, `new` being its reports. -/
theorem verifyChunk_eq_of_passes {m : BitVec 2} {d : BitVec 12} {new : List Event}
    (h : (s.takeRead s.eeAddr.toNat (chunkLen s.cfg s.eeAddr.toNat)).compare s.eeAddr.toNat
      ((List.range' s.eeAddr.toNat (chunkLen s.cfg s.eeAddr.toNat)).map (chunkPair s)) =
        ({ s.takeRead s.eeAddr.toNat (chunkLen s.cfg s.eeAddr.toNat) with
          eeMism := m, eeMaddr := d
          trace := new ++ (s.takeRead s.eeAddr.toNat (chunkLen s.cfg s.eeAddr.toNat)).trace }, false)) :
    s.verifyChunk = { s with
      eeMism := m
      eeMaddr := d
      trace := new ++ .eeRead s.eeAddr.toNat (s.readAnswer s.eeAddr.toNat (chunkLen s.cfg s.eeAddr.toNat)) :: s.trace
      readErrIn := s.readErrIn.tail
      envIdx := if s.readErrIn = [] then s.envIdx + 1 else s.envIdx
      eeAddr := BitVec.ofNat 13 (s.eeAddr.toNat + chunkLen s.cfg s.eeAddr.toNat)
      op := if s.eeAddr.toNat + chunkLen s.cfg s.eeAddr.toNat = limit s.cfg then .idle else .eeVerify
      result := if s.eeAddr.toNat + chunkLen s.cfg s.eeAddr.toNat = limit s.cfg then true else s.result
      status := if s.eeAddr.toNat + chunkLen s.cfg s.eeAddr.toNat = limit s.cfg then .ok else s.status } := by
  rw [← verify_pairs_eq_chunkPair] at h
  rw [verifyChunk_of_passes h, verifyAdvance_eq, ← ho]
  rfl

/-- A verify step in which the second mismatch lies. -/
theorem verifyChunk_eq_of_aborts {seen more : List Nat} {a₁ a₂ : Nat} (hrec : Recorded s.eeMism s.eeMaddr seen)
    (hw : seen ++ (badOffsets s).map (s.eeAddr.toNat + ·) = a₁ :: a₂ :: more) :
    ∃ tr, s.verifyChunk = { s with
      eeMism := 2
      eeMaddr := BitVec.ofNat 12 a₁
      trace := .failure .verifyMismatch (some a₂) :: tr
      readErrIn := s.readErrIn.tail
      envIdx := if s.readErrIn = [] then s.envIdx + 1 else s.envIdx
      op := .idle
      result := false
      status := .verifyMismatch } := by
  rw [← differing_chunkPair] at hw
  obtain ⟨tr, h⟩ := compare_aborts (s := s.takeRead s.eeAddr.toNat (chunkLen s.cfg s.eeAddr.toNat)) hrec hw
  rw [← verify_pairs_eq_chunkPair] at h
  refine ⟨tr, ?_⟩
  rw [verifyChunk_of_aborts h, raise_of_not_inTransfer (by simp [ho, Op.inTransfer])]
  rfl

end

/-- Settles O37: no mismatch in the chunk, or one and none before it. -/
theorem verifyToleratesOneMismatch : Obligations.VerifyToleratesOneMismatch := by
  rintro s hr ho hc bad hbad hle
  have hbad : bad = badOffsets s := hbad
  have hstep := step_verify hr ho hc
  have hdiff := differing_chunkPair s
  rw [← hbad] at hdiff
  match bad, hbad, hle, hdiff with
  | [], _, _, hdiff =>
    have e := verifyChunk_eq_of_passes (new := []) ho
      (compare_of_none (s := s.takeRead s.eeAddr.toNat (chunkLen s.cfg s.eeAddr.toNat)) hdiff)
    rw [e] at hstep
    exact ⟨_, hstep, rfl, fun _ => rfl, by simp, rfl, rfl⟩
  | [i], hbad, hle, hdiff =>
    have hm : s.eeMism = 0 := BitVec.eq_of_toNat_eq (by simpa using hle)
    have hi : i < chunkLen s.cfg s.eeAddr.toNat := badOffsets_lt s (by rw [← hbad]; exact List.mem_singleton_self i)
    have hend := chunk_end_le_limit hc
    have hlim := limit_le_image s.cfg
    have e := verifyChunk_eq_of_passes (new := [_]) ho
      (compare_of_one (s := s.takeRead s.eeAddr.toNat (chunkLen s.cfg s.eeAddr.toNat)) hdiff hm)
    rw [chunkPair_offset] at e
    rw [e] at hstep
    refine ⟨_, hstep, by rw [hm]; rfl, by simp, fun j hj => ?_, rfl, rfl⟩
    obtain rfl := List.mem_singleton.mp hj
    exact (BitVec.toNat_ofNat _ _).trans (Nat.mod_eq_of_lt (by change s.eeAddr.toNat + j < 4096; omega))

/-- Settles O38: the second mismatch of the verification is the second of the chunk, or its first where one is recorded
already. -/
theorem verifyAbortsOnSecondMismatch : Obligations.VerifyAbortsOnSecondMismatch := by
  rintro s hr ho hc hm bad hbad hge
  have hbad : bad = badOffsets s := hbad
  have hstep := step_verify hr ho hc
  have hcases : s.eeMism = 0 ∨ s.eeMism = 1 := by bv_omega
  obtain h0 | h1 := hcases
  · match bad, hbad, hge with
    | i :: j :: more, hbad, _ =>
      have hi : i < chunkLen s.cfg s.eeAddr.toNat := badOffsets_lt s (by rw [← hbad]; exact List.mem_cons_self)
      have hend := chunk_end_le_limit hc
      have hlim := limit_le_image s.cfg
      obtain ⟨tr, e⟩ := verifyChunk_eq_of_aborts ho (seen := []) (by rw [h0]; exact .none _) (by rw [← hbad]; rfl)
      rw [e] at hstep
      refine ⟨_, j, hstep, by rw [h0]; rfl, rfl, fun h => by simp [h0] at h, fun _ => ⟨i, rfl, ?_⟩, rfl, rfl⟩
      exact (BitVec.toNat_ofNat _ _).trans (Nat.mod_eq_of_lt (by change s.eeAddr.toNat + i < 4096; omega))
    | [i], _, hge => simp [h0] at hge
    | [], _, hge => simp [h0] at hge
  · match bad, hbad, hge with
    | j :: more, hbad, _ =>
      have hrec : Recorded s.eeMism s.eeMaddr [s.eeMaddr.toNat] := by
        have hone := Recorded.one s.eeMaddr.toNat
        rwa [BitVec.ofNat_toNat, BitVec.setWidth_eq, ← h1] at hone
      obtain ⟨tr, e⟩ := verifyChunk_eq_of_aborts ho hrec (by rw [← hbad]; rfl)
      rw [e] at hstep
      refine ⟨_, j, hstep, by rw [h1]; rfl, rfl, fun _ => ?_, fun h => by simp [h1] at h, rfl, rfl⟩
      rw [BitVec.ofNat_toNat, BitVec.setWidth_eq]
    | [], _, hge => simp [h1] at hge

/-! A burn on a faithful device -/

/-- An address of the chunk list, or LIMIT, fits EE_ADDR. -/
theorem pageStart_toNat (p : Params) (k : Nat) : (BitVec.ofNat 13 (pageStart p k)).toNat = pageStart p k := by
  have hle : pageStart p k ≤ limit p := Nat.min_le_right _ _
  have hlim := limit_le_image p
  rw [BitVec.toNat_ofNat, Nat.mod_eq_of_lt (by omega)]

/-- `e` holds the image of `s` below `n` and what EE of `s` holds from there on. -/
def WrittenUpTo (s : State) (n : Nat) (e : Memory) : Prop :=
  ∀ x, e.read x = if x < n then s.img.read x else s.ee.read x

section
variable {s : State} {k : Nat} (hp : 1 ≤ s.cfg.eePage) (hr : s.restartIn = false)

section
variable (ho : s.op = .eeWrite) (ha : s.eeAddr = 0)
include hp hr ho

/-- One page more is written. -/
theorem step_writePage {e : Memory} {tr : List Event} (hk : k < chunkCount s.cfg)
    (he : WrittenUpTo s (pageStart s.cfg k) e) :
    ∃ u, step { s with ee := e, eeAddr := BitVec.ofNat 13 (pageStart s.cfg k), trace := tr } = .next u ∧
      WrittenUpTo s (pageStart s.cfg (k + 1)) u.ee ∧
      u = if pageStart s.cfg (k + 1) = limit s.cfg then
          { s with ee := u.ee, trace := u.trace, eeAddr := 0, eeMism := 0, eeMaddr := 0, op := .eeVerify }
        else { s with ee := u.ee, trace := u.trace, eeAddr := BitVec.ofNat 13 (pageStart s.cfg (k + 1)) } := by
  have haddr := pageStart_toNat s.cfg k
  have hnext := pageStart_add_chunkLen hp hk
  generalize hv : ({ s with ee := e, eeAddr := BitVec.ofNat 13 (pageStart s.cfg k), trace := tr } : State) = v
  have hva : v.eeAddr.toNat = pageStart s.cfg k := by rw [← hv]; exact haddr
  have hvc : v.cfg = s.cfg := by rw [← hv]
  have hstep : step v = .next v.writeChunk :=
    step_write (by rw [← hv]; exact hr) (by rw [← hv]; exact ho) (by rw [hva, hvc]; exact chunkDefined_pageStart hp hk)
  have hread := writeChunk_ee_read v
  have hframe := writeChunk_frame v
  rw [hva, hvc, hnext] at hread hframe
  refine ⟨v.writeChunk, hstep, fun x => ?_, ?_⟩
  · have hvi : v.img = s.img := by rw [← hv]
    have hve : v.ee.read x = if x < pageStart s.cfg k then s.img.read x else s.ee.read x := by
      rw [← hv]
      exact he x
    have hmono : pageStart s.cfg k ≤ pageStart s.cfg (k + 1) := by omega
    rw [hread, hve, hvi]
    by_cases hlo : x < pageStart s.cfg k
    · rw [if_neg (by omega), if_pos hlo, if_pos (by omega)]
    · by_cases hhi : x < pageStart s.cfg (k + 1)
      · rw [if_pos ⟨by omega, hhi⟩, if_pos hhi]
      · rw [if_neg (by omega), if_neg hlo, if_neg hhi]
  · rw [hframe]
    subst hv
    split <;> rfl

include ha

/-- The first `k` write steps (R186). -/
theorem run_writePages (hk : k < chunkCount s.cfg) : ∃ e tr, Host.Core.run Sys2Proof.core k s =
      .next { s with ee := e, eeAddr := BitVec.ofNat 13 (pageStart s.cfg k), trace := tr } ∧
      WrittenUpTo s (pageStart s.cfg k) e := by
  induction k with
  | zero =>
    have h0 : pageStart s.cfg 0 = 0 := by simp [pageStart]
    refine ⟨s.ee, s.trace, ?_, fun x => by rw [h0]; rfl⟩
    have e : BitVec.ofNat 13 (pageStart s.cfg 0) = s.eeAddr := by rw [h0, ha]; rfl
    rw [e]
    rfl
  | succ k ih =>
    obtain ⟨e, tr, erun, he⟩ := ih (by omega)
    obtain ⟨u, eu, hu, hform⟩ := step_writePage hp hr ho (tr := tr) (by omega) he
    rw [if_neg (pageStart_lt_limit hp hk).ne] at hform
    exact ⟨u.ee, u.trace, by rw [← hform]; exact run_snoc erun eu, hu⟩

/-- The write phase (R186). -/
theorem run_write (hpos : 0 < limit s.cfg) : ∃ e tr, Host.Core.run Sys2Proof.core (chunkCount s.cfg) s =
      .next { s with ee := e, trace := tr, eeAddr := 0, eeMism := 0, eeMaddr := 0, op := .eeVerify } ∧
      WrittenUpTo s (limit s.cfg) e := by
  have hc : 0 < chunkCount s.cfg := (lt_chunkCount_iff hp).mpr (by omega)
  obtain ⟨k, hk⟩ : ∃ k, chunkCount s.cfg = k + 1 := ⟨chunkCount s.cfg - 1, by omega⟩
  have hlast : pageStart s.cfg (k + 1) = limit s.cfg := hk ▸ pageStart_chunkCount hp
  obtain ⟨e, tr, erun, he⟩ := run_writePages hp hr ho ha (k := k) (by omega)
  obtain ⟨u, eu, hu, hform⟩ := step_writePage hp hr ho (tr := tr) (by omega) he
  rw [if_pos hlast] at hform
  rw [hlast] at hu
  exact ⟨u.ee, u.trace, by rw [hk, ← hform]; exact run_snoc erun eu, hu⟩

end

section
variable (ho : s.op = .eeVerify) (ha : s.eeAddr = 0) {reads : List (List Byte)}
  (hsame : ∀ a, a < limit s.cfg → s.ee.read a = s.img.read a)
include hp hr ho hsame

/-- A page that reads back without error as the image's is passed over (R187). -/
theorem step_verifyPage {tr : List Event} (hk : k < chunkCount s.cfg) : ∃ tr',
    step { s with
        eeAddr := BitVec.ofNat 13 (pageStart s.cfg k), readErrIn := [] :: reads, trace := tr } =
      .next (if pageStart s.cfg (k + 1) = limit s.cfg then
        { s with
          eeAddr := BitVec.ofNat 13 (pageStart s.cfg (k + 1)), readErrIn := reads, trace := tr'
          op := .idle, result := true, status := .ok }
      else
        { s with eeAddr := BitVec.ofNat 13 (pageStart s.cfg (k + 1)), readErrIn := reads, trace := tr' }) := by
  have haddr := pageStart_toNat s.cfg k
  have hnext := pageStart_add_chunkLen hp hk
  have hle : pageStart s.cfg (k + 1) ≤ limit s.cfg := Nat.min_le_right _ _
  generalize hv : ({ s with
    eeAddr := BitVec.ofNat 13 (pageStart s.cfg k), readErrIn := [] :: reads, trace := tr } : State) = v
  have hva : v.eeAddr.toNat = pageStart s.cfg k := by rw [← hv]; exact haddr
  have hvc : v.cfg = s.cfg := by rw [← hv]
  have hvo : v.op = .eeVerify := by rw [← hv]; exact ho
  have hgood : badOffsets v = [] := by
    refine List.filter_eq_nil_iff.mpr fun i hi => ?_
    have hi' := List.mem_range.mp hi
    rw [hva, hvc] at hi'
    rw [hva, ← hv]
    have heq := hsame (pageStart s.cfg k + i) (by omega)
    simp [State.readError, heq]
  have hdiff := differing_chunkPair v
  rw [hgood] at hdiff
  have e := verifyChunk_eq_of_passes (new := []) hvo
    (compare_of_none (s := v.takeRead v.eeAddr.toNat (chunkLen v.cfg v.eeAddr.toNat)) hdiff)
  rw [hva, hvc, hnext] at e
  have hstep : step v = .next v.verifyChunk :=
    step_verify (by rw [← hv]; exact hr) hvo (by rw [hva, hvc]; exact chunkDefined_pageStart hp hk)
  refine ⟨v.verifyChunk.trace, hstep.trans (congrArg _ ?_)⟩
  rw [e]
  subst hv
  split
  · rfl
  · simp [ho]

include ha

/-- The first `k` verify steps. -/
theorem run_verifyPages (hin : s.readErrIn = List.replicate (chunkCount s.cfg) [] ++ reads)
    (hk : k < chunkCount s.cfg) : ∃ tr, Host.Core.run Sys2Proof.core k s = .next { s with
      eeAddr := BitVec.ofNat 13 (pageStart s.cfg k)
      readErrIn := List.replicate (chunkCount s.cfg - k) [] ++ reads
      trace := tr } := by
  induction k with
  | zero =>
    have e : BitVec.ofNat 13 (pageStart s.cfg 0) = s.eeAddr := by simp [pageStart, ha]
    refine ⟨s.trace, ?_⟩
    rw [e, Nat.sub_zero, ← hin]
    rfl
  | succ k ih =>
    obtain ⟨tr, erun⟩ := ih (by omega)
    have hcount : chunkCount s.cfg - k = chunkCount s.cfg - (k + 1) + 1 := by omega
    rw [hcount, List.replicate_succ, List.cons_append] at erun
    obtain ⟨tr', e⟩ := step_verifyPage hp hr ho hsame (tr := tr)
      (reads := List.replicate (chunkCount s.cfg - (k + 1)) [] ++ reads) (by omega : k < chunkCount s.cfg)
    rw [if_neg (pageStart_lt_limit hp hk).ne] at e
    exact ⟨tr', run_snoc erun e⟩

/-- The verify phase ends with RESULT 1 and OK (R187). -/
theorem run_verify (hin : s.readErrIn = List.replicate (chunkCount s.cfg) [] ++ reads) (hpos : 0 < limit s.cfg) :
    ∃ a r tr, Host.Core.run Sys2Proof.core (chunkCount s.cfg) s = .next { s with
      eeAddr := a, readErrIn := r, trace := tr, op := .idle, result := true, status := .ok } := by
  have hc : 0 < chunkCount s.cfg := (lt_chunkCount_iff hp).mpr (by omega)
  obtain ⟨k, hk⟩ : ∃ k, chunkCount s.cfg = k + 1 := ⟨chunkCount s.cfg - 1, by omega⟩
  have hlast : pageStart s.cfg (k + 1) = limit s.cfg := hk ▸ pageStart_chunkCount hp
  obtain ⟨tr, erun⟩ := run_verifyPages hp hr ho ha hsame hin (k := k) (by omega)
  have hone : chunkCount s.cfg - k = 1 := by omega
  rw [hone] at erun
  obtain ⟨tr', e⟩ := step_verifyPage hp hr ho hsame (tr := tr) (reads := reads) (by omega : k < chunkCount s.cfg)
  rw [if_pos hlast] at e
  exact ⟨_, _, tr', by rw [hk]; exact run_snoc erun e⟩

end

end

/-- Settles O45: the acceptance, the probes, the write phase, the verify phase. -/
theorem faithfulBurnStoresImage : Obligations.FaithfulBurnStoresImage := by
  intro s r rest k probes reads hw hr ho hv hc hd hprobe hread
  obtain ⟨-, -, -, -, hp, -⟩ := params_wf_iff.mp hw
  have hpos := limit_pos_of_wf hw
  have haccept : step s = .next { s with cmdIn := rest, op := .eeProbe } :=
    (step_request hr ho hc hd).trans (burnStartsProbing { s with cmdIn := rest } ho hv)
  obtain ⟨st, tr, eabsent, -⟩ := run_absent (s := { s with cmdIn := rest, op := .eeProbe }) hr rfl hprobe
  have epresent := step_probe (s := { s with
    cmdIn := rest, op := .eeProbe, probeIn := true :: probes, status := st, trace := tr }) hr rfl
  rw [probe_of_present rfl, takeProbe_cons rfl] at epresent
  obtain ⟨e, trw, ewrite, hee⟩ := run_write (s := { s with
    cmdIn := rest, op := .eeWrite, probeIn := probes, status := .ok, trace := .eeProbe true :: tr, eeAddr := 0 })
    hp hr rfl rfl hpos
  obtain ⟨a, rd, trv, everify⟩ := run_verify (s := { s with
    cmdIn := rest, op := .eeVerify, probeIn := probes, status := .ok, ee := e, trace := trw, eeAddr := 0
    eeMism := 0, eeMaddr := 0 }) hp hr rfl rfl (fun x hx => (hee x).trans (if_pos hx)) hread hpos
  have hcount : 2 + k + 2 * chunkCount s.cfg = 1 + (k + 1) + chunkCount s.cfg + chunkCount s.cfg := by omega
  have eprobe : Host.Core.run Sys2Proof.core (1 + (k + 1)) s = .next _ :=
    (run_add (run_snoc rfl haccept)).trans (run_snoc eabsent epresent)
  have erun := (congrArg (Host.Core.run Sys2Proof.core · s) hcount).trans
    ((run_add ((run_add eprobe).trans ewrite)).trans everify)
  exact ⟨_, erun, rfl, rfl, rfl, rfl, rfl, rfl, fun x hx => (hee x).trans (if_pos hx),
    fun x hx => (hee x).trans (if_neg (Nat.not_lt.mpr hx))⟩

end Sys2Proof.Machine
end
